-- ==== Sys2Proof/Word.lean ====
section
/-! DEFINITION. The words of the block and their plainest names.

The spec counts bytes, words and packets with natural numbers (00_scope R13), and stores fields of fixed widths
(10_state). A FIFO word and a command word are 32 bits wide, a buffer byte is 8 bits wide. -/

namespace Sys2Proof

/-- A byte of the buffer memory (20_memory R52). -/
abbrev Byte := BitVec 8

/-- A 32-bit word: a FIFO word, a command word, a buffer address, a millisecond count. -/
abbrev Word := BitVec 32

/-- An endpoint number, 0 to 7 per direction (00_scope R7, NUM_EP = 8). -/
abbrev Ep := Fin 8

/-- All endpoint numbers in the ascending order that every per-endpoint loop takes (42_bus_event_handler R104). -/
def allEps : List Ep := [0, 1, 2, 3, 4, 5, 6, 7]

end Sys2Proof
end

