-- ==== Sys2Proof/Syntax.lean ====
section
/-! DEFINITION. The instructions: one constructor for each row of spec/opcode_table.json, in the table's order.

The table has six kinds of row. The commands of the command port (30_encoding R74) come from a task's command list.
The packet primitives (R77), the dispatcher's services (42_bus_event_handler R103), the receive kinds (30_encoding
R85) and the endpoint event bits (R84) are selected by the block itself while the dispatcher runs an iteration. -/

namespace Sys2Proof

/-- The endpoint types (30_encoding R79). -/
inductive EpType where
  | control
  | isochronous
  | bulk
  | interrupt
  deriving DecidableEq, Repr

/-- The direction of an endpoint: `inn` is device to host, `out` is host to device (00_scope R16). -/
inductive Dir where
  | inn
  | out
  deriving DecidableEq, Repr

/-- One constructor per row of spec/opcode_table.json. -/
inductive Instr where
  /-- INIT (44_bus_control R133). -/
  | init
  /-- CONNECT (44_bus_control R134). -/
  | connect
  /-- DISCONNECT (44_bus_control R135). -/
  | disconnect
  /-- SET_RX_FIFO_SIZE (41_endpoint_config R99). -/
  | setRxFifoSize (words : BitVec 16)
  /-- SET_TX_FIFO_SIZE (41_endpoint_config R100). -/
  | setTxFifoSize (e : Ep) (words : BitVec 16)
  /-- CONFIGURE_IN_EP (41_endpoint_config R96). -/
  | configureInEp (e : Ep) (ty : EpType) (mps : BitVec 11)
  /-- CONFIGURE_OUT_EP (41_endpoint_config R97). -/
  | configureOutEp (e : Ep) (ty : EpType) (mps : BitVec 11)
  /-- IN_TRANSFER (43_transfer_api R120). -/
  | inTransfer (e : Ep) (size : BitVec 19) (buf tmo : Word)
  /-- OUT_TRANSFER (43_transfer_api R121). -/
  | outTransfer (e : Ep) (size : BitVec 19) (buf tmo : Word)
  /-- SETUP_TRANSFER (43_transfer_api R122). -/
  | setupTransfer (e : Ep) (size : BitVec 19) (buf tmo : Word)
  /-- SET_DEVICE_ADDRESS (43_transfer_api R128). -/
  | setDeviceAddress (addr : BitVec 7)
  /-- STALL_IN_EP (43_transfer_api R129). -/
  | stallInEp (e : Ep)
  /-- STALL_OUT_EP (43_transfer_api R130). -/
  | stallOutEp (e : Ep)
  /-- DISABLE_IN_EP (43_transfer_api R131). -/
  | disableInEp (e : Ep)
  /-- DISABLE_OUT_EP (43_transfer_api R132). -/
  | disableOutEp (e : Ep)
  /-- READ_PACKET (40_fifo_marshaling R92). -/
  | readPacket (dst : Word) (size : Nat)
  /-- WRITE_PACKET (40_fifo_marshaling R93). -/
  | writePacket (e : Ep) (src : Word) (size : Nat)
  /-- DUMP_PACKET (40_fifo_marshaling R94). -/
  | dumpPacket (size : Nat)
  /-- SVC_USBRST, the Reset service (42_bus_event_handler R106). -/
  | svcUsbrst
  /-- SVC_ENUMDNE, the EnumerationDone service (42_bus_event_handler R107). -/
  | svcEnumdne
  /-- SVC_RXFLVL, the ReceiveFifoLevel service (42_bus_event_handler R108). -/
  | svcRxflvl
  /-- SVC_IEPINT, the InEndpoint service (42_bus_event_handler R110). -/
  | svcIepint
  /-- SVC_OEPINT, the OutEndpoint service (42_bus_event_handler R111). -/
  | svcOepint
  /-- SVC_IISOIXFR, the IsoIncomplete service for IN (42_bus_event_handler R112). -/
  | svcIisoixfr
  /-- SVC_IPXFR, the IsoIncomplete service for OUT (42_bus_event_handler R112). -/
  | svcIpxfr
  /-- SVC_WKUPINT, the Wake service (42_bus_event_handler R113). -/
  | svcWkupint
  /-- RX_GLOBAL_OUT_NAK, a receive status entry (42_bus_event_handler R109). -/
  | rxGlobalOutNak (epnum : BitVec 4) (bcnt : BitVec 11) (dpid : BitVec 2) (frmnum : BitVec 4)
  /-- RX_OUT_DATA, a receive status entry (42_bus_event_handler R108). -/
  | rxOutData (epnum : BitVec 4) (bcnt : BitVec 11) (dpid : BitVec 2) (frmnum : BitVec 4)
  /-- RX_OUT_XFER_DONE, a receive status entry (42_bus_event_handler R109). -/
  | rxOutXferDone (epnum : BitVec 4) (bcnt : BitVec 11) (dpid : BitVec 2) (frmnum : BitVec 4)
  /-- RX_SETUP_DONE, a receive status entry (42_bus_event_handler R109). -/
  | rxSetupDone (epnum : BitVec 4) (bcnt : BitVec 11) (dpid : BitVec 2) (frmnum : BitVec 4)
  /-- RX_SETUP_DATA, a receive status entry (42_bus_event_handler R108). -/
  | rxSetupData (epnum : BitVec 4) (bcnt : BitVec 11) (dpid : BitVec 2) (frmnum : BitVec 4)
  /-- IEP_XFRC, an IN endpoint's "transfer complete" (42_bus_event_handler R110). -/
  | iepXfrc (e : Ep)
  /-- IEP_TXFE, an IN endpoint's "FIFO empty" (42_bus_event_handler R110). -/
  | iepTxfe (e : Ep)
  /-- OEP_XFRC, an OUT endpoint's "transfer complete" (42_bus_event_handler R111). -/
  | oepXfrc (e : Ep)
  /-- OEP_STUP, an OUT endpoint's "setup phase done" (42_bus_event_handler R111). -/
  | oepStup (e : Ep)
  deriving DecidableEq, Repr

/-- Where the word that selects an instruction stands: the six formats of spec/opcode_table.json. The endpoint event
registers are banked, so their spaces name the endpoint. -/
inductive Space where
  /-- A task's command list (formats C1 and C3). -/
  | port
  /-- The block's own calls of the packet primitives (format internal). -/
  | primitive
  /-- The masked interrupt status (format event:GINTSTS). -/
  | gintsts
  /-- A receive status word (format rxsts). -/
  | rxsts
  /-- The event register of IN endpoint e (format event:DIEPINT). -/
  | diepint (e : Ep)
  /-- The event register of OUT endpoint e (format event:DOEPINT). -/
  | doepint (e : Ep)
  deriving DecidableEq, Repr

/-- The space an instruction is selected in. -/
def Instr.space : Instr → Space
  | .init | .connect | .disconnect | .setRxFifoSize _ | .setTxFifoSize _ _ => .port
  | .configureInEp _ _ _ | .configureOutEp _ _ _ => .port
  | .inTransfer _ _ _ _ | .outTransfer _ _ _ _ | .setupTransfer _ _ _ _ => .port
  | .setDeviceAddress _ | .stallInEp _ | .stallOutEp _ | .disableInEp _ | .disableOutEp _ => .port
  | .readPacket _ _ | .writePacket _ _ _ | .dumpPacket _ => .primitive
  | .svcUsbrst | .svcEnumdne | .svcRxflvl | .svcIepint => .gintsts
  | .svcOepint | .svcIisoixfr | .svcIpxfr | .svcWkupint => .gintsts
  | .rxGlobalOutNak _ _ _ _ | .rxOutData _ _ _ _ | .rxOutXferDone _ _ _ _ => .rxsts
  | .rxSetupDone _ _ _ _ | .rxSetupData _ _ _ _ => .rxsts
  | .iepXfrc e | .iepTxfe e => .diepint e
  | .oepXfrc e | .oepStup e => .doepint e

end Sys2Proof
end

