-- ==== Sys2Proof/WellFormed.lean ====
section
/-! DEFINITION. Which instructions the spec can give rise to.

The operand types already bound every field of a command. What remains are the byte counts of the primitives
(40_fifo_marshaling R92), which must also fit the argument words the encoder writes (log 15), the buffer ranges that
never wrap (20_memory R53), and the byte counts that 30_encoding R85 fixes for each receive kind. -/

namespace Sys2Proof

/-- The largest byte count of one receive entry: BCNT is 11 bits wide (30_encoding R85). -/
def maxPacketBytes : Nat := 2047

/-- An instruction as the spec's own rules form it. -/
def Instr.wellFormed : Instr → Bool
  | .readPacket dst size => decide (size ≤ maxPacketBytes) && decide (dst.toNat + size ≤ 2 ^ 32)
  | .writePacket _ src size => decide (size < 2 ^ 32) && decide (src.toNat + size ≤ 2 ^ 32)
  | .dumpPacket size => decide (size ≤ maxPacketBytes)
  | .rxGlobalOutNak _ bcnt _ _ => decide (bcnt = 0)
  | .rxOutXferDone _ bcnt _ _ => decide (bcnt = 0)
  | .rxSetupDone _ bcnt _ _ => decide (bcnt = 0)
  | .rxSetupData _ bcnt _ _ => decide (bcnt = 8)
  | .init | .connect | .disconnect | .setRxFifoSize _ | .setTxFifoSize _ _ => true
  | .configureInEp _ _ _ | .configureOutEp _ _ _ => true
  | .inTransfer _ _ _ _ | .outTransfer _ _ _ _ | .setupTransfer _ _ _ _ => true
  | .setDeviceAddress _ | .stallInEp _ | .stallOutEp _ | .disableInEp _ | .disableOutEp _ => true
  | .svcUsbrst | .svcEnumdne | .svcRxflvl | .svcIepint => true
  | .svcOepint | .svcIisoixfr | .svcIpxfr | .svcWkupint => true
  | .rxOutData _ _ _ _ => true
  | .iepXfrc _ | .iepTxfe _ | .oepXfrc _ | .oepStup _ => true

end Sys2Proof
end

