-- ==== Sys2Proof/Decode.lean ====
section
/-! DEFINITION. Decoding and encoding, from the tables of 30_encoding and spec/opcode_table.json.

The decoder of the command port (R70 to R76) reads a task's command words. The block's own selections have decoders of
their own: the packet primitives (R74, R77), the bits of the interrupt status (R83), the receive status word (R85) and
the endpoint event bits (R84). Every decoder is total and rejects by name. The encoder follows in the same file. -/

namespace Sys2Proof

/-- Why a word selects no instruction. The first three are the command port's refusals (30_encoding R76); `truncated`
is a command list that ends inside a command (log 16); the others belong to the block's own selections. -/
inductive DecodeRefusal where
  | reservedOp
  | nonZeroField
  | internalOp
  | truncated
  | notPrimitive
  | notOneService
  | reservedKind
  | notOneEvent
  deriving DecidableEq, Repr

/-! ## Fields of a command word (30_encoding R71, R73) -/

/-- OP, bits 31:27. -/
def opField (w : Word) : BitVec 5 := w.extractLsb' 27 5

/-- EP, bits 26:24. -/
def epField (w : Word) : Ep := (w.extractLsb' 24 3).toFin

/-- TY, bits 23:22. -/
def tyField (w : Word) : BitVec 2 := w.extractLsb' 22 2

/-- The `words` operand, bits 15:0. -/
def wordsField (w : Word) : BitVec 16 := w.extractLsb' 0 16

/-- The `mps` operand, bits 10:0. -/
def mpsFieldOf (w : Word) : BitVec 11 := w.extractLsb' 0 11

/-- The `size` operand, bits 18:0. -/
def sizeField (w : Word) : BitVec 19 := w.extractLsb' 0 19

/-- The `addr` operand, bits 6:0. -/
def addrField (w : Word) : BitVec 7 := w.extractLsb' 0 7

/-- The endpoint type code (30_encoding R79). -/
def EpType.code : EpType → BitVec 2
  | .control => 0
  | .isochronous => 1
  | .bulk => 2
  | .interrupt => 3

/-- The endpoint type of a code; every 2-bit code is a type (30_encoding R79). -/
def EpType.ofCode (c : BitVec 2) : EpType :=
  if c = 0 then .control else if c = 1 then .isochronous else if c = 2 then .bulk else .interrupt

/-! ## The command port (30_encoding R70 to R76) -/

/-- The match value of a command's row, by OP (30_encoding R75). -/
def commandMatch : Nat → Word
  | 1 => 0x08000000
  | 2 => 0x10000000
  | 3 => 0x18000000
  | 4 => 0x20000000
  | 5 => 0x28000000
  | 6 => 0x30000000
  | 7 => 0x38000000
  | 8 => 0x40000000
  | 9 => 0x48000000
  | 10 => 0x50000000
  | 11 => 0x58000000
  | 12 => 0x60000000
  | 13 => 0x68000000
  | 14 => 0x70000000
  | 15 => 0x78000000
  | _ => 0

/-- The mask of a command's row, by OP (30_encoding R75). -/
def commandMask : Nat → Word
  | 1 => 0xFFFFFFFF
  | 2 => 0xFFFFFFFF
  | 3 => 0xFFFFFFFF
  | 4 => 0xFFFF0000
  | 5 => 0xF8FF0000
  | 6 => 0xF83FF800
  | 7 => 0xF83FF800
  | 8 => 0xF8F80000
  | 9 => 0xF8F80000
  | 10 => 0xF8F80000
  | 11 => 0xFFFFFF80
  | 12 => 0xF8FFFFFF
  | 13 => 0xF8FFFFFF
  | 14 => 0xF8FFFFFF
  | 15 => 0xF8FFFFFF
  | _ => 0

/-- The number of words of the command a word begins, from OP alone (30_encoding R72). -/
def commandLength (w : Word) : Nat :=
  if opField w = 8 ∨ opField w = 9 ∨ opField w = 10 then 3 else 1

/-- The BUF and TMO words of a C3 command (30_encoding R70). -/
def withOperandWords (rest : List Word) (f : Word → Word → Instr) : Except DecodeRefusal Instr :=
  match rest with
  | buf :: tmo :: _ => .ok (f buf tmo)
  | _ => .error .truncated

/-- The command of a word whose OP is a command's and whose must-be-zero bits are zero. -/
def commandOf (w : Word) (rest : List Word) : Except DecodeRefusal Instr :=
  match (opField w).toNat with
  | 1 => .ok .init
  | 2 => .ok .connect
  | 3 => .ok .disconnect
  | 4 => .ok (.setRxFifoSize (wordsField w))
  | 5 => .ok (.setTxFifoSize (epField w) (wordsField w))
  | 6 => .ok (.configureInEp (epField w) (.ofCode (tyField w)) (mpsFieldOf w))
  | 7 => .ok (.configureOutEp (epField w) (.ofCode (tyField w)) (mpsFieldOf w))
  | 8 => withOperandWords rest (.inTransfer (epField w) (sizeField w))
  | 9 => withOperandWords rest (.outTransfer (epField w) (sizeField w))
  | 10 => withOperandWords rest (.setupTransfer (epField w) (sizeField w))
  | 11 => .ok (.setDeviceAddress (addrField w))
  | 12 => .ok (.stallInEp (epField w))
  | 13 => .ok (.stallOutEp (epField w))
  | 14 => .ok (.disableInEp (epField w))
  | 15 => .ok (.disableOutEp (epField w))
  | _ => .error .reservedOp

/-- Whether an OP names a packet primitive, which the port refuses (30_encoding R76). -/
def internalOp (op : Nat) : Bool := op == 24 || op == 25 || op == 26

/-- Whether an OP is a command's (30_encoding R74). -/
def commandOp (op : Nat) : Bool := decide (1 ≤ op) && decide (op ≤ 15)

/-- The decoder of the command port: the command at the head of a list of words (30_encoding R75, R76). -/
def decodeCommand : List Word → Except DecodeRefusal Instr
  | [] => .error .truncated
  | w :: rest =>
    if internalOp (opField w).toNat then .error .internalOp
    else if !commandOp (opField w).toNat then .error .reservedOp
    else if w &&& commandMask (opField w).toNat ≠ commandMatch (opField w).toNat then .error .nonZeroField
    else commandOf w rest

/-- The words that follow the first command of a list. -/
def dropCommand : List Word → List Word
  | [] => []
  | w :: rest => rest.drop (commandLength w - 1)

/-- The words that follow the first `n` commands of a list: where command `n` begins (10_state R46, `pc`). -/
def dropCommands : Nat → List Word → List Word
  | 0, ws => ws
  | n + 1, ws => dropCommands n (dropCommand ws)

/-! ## The block's own selections -/

/-- A primitive from its OP word and its argument words. The table fixes the OP alone ("argument"); the argument words
are the model's (log 15). -/
def decodePrimitive : List Word → Except DecodeRefusal Instr
  | [] => .error .truncated
  | w :: args =>
    match (opField w).toNat, args with
    | 24, dst :: size :: _ => .ok (.readPacket dst size.toNat)
    | 25, src :: size :: _ => .ok (.writePacket (epField w) src size.toNat)
    | 26, size :: _ => .ok (.dumpPacket size.toNat)
    | 24, _ => .error .truncated
    | 25, _ => .error .truncated
    | 26, _ => .error .truncated
    | _, _ => .error .notPrimitive

/-- RXFLVL (30_encoding R83). -/
def rxflvlBit : Nat := 4
/-- USBRST (30_encoding R83). -/
def usbrstBit : Nat := 12
/-- ENUMDNE (30_encoding R83). -/
def enumdneBit : Nat := 13
/-- IEPINT (30_encoding R83). -/
def iepintBit : Nat := 18
/-- OEPINT (30_encoding R83). -/
def oepintBit : Nat := 19
/-- IISOIXFR (30_encoding R83). -/
def iisoixfrBit : Nat := 20
/-- IPXFR (30_encoding R83). -/
def ipxfrBit : Nat := 21
/-- WKUPINT (30_encoding R83). -/
def wkupintBit : Nat := 31

/-- The service of a status word with exactly one of the eight bits set (30_encoding R83). -/
def decodeService (w : Word) : Except DecodeRefusal Instr :=
  if w = BitVec.twoPow 32 usbrstBit then .ok .svcUsbrst
  else if w = BitVec.twoPow 32 enumdneBit then .ok .svcEnumdne
  else if w = BitVec.twoPow 32 rxflvlBit then .ok .svcRxflvl
  else if w = BitVec.twoPow 32 iepintBit then .ok .svcIepint
  else if w = BitVec.twoPow 32 oepintBit then .ok .svcOepint
  else if w = BitVec.twoPow 32 iisoixfrBit then .ok .svcIisoixfr
  else if w = BitVec.twoPow 32 ipxfrBit then .ok .svcIpxfr
  else if w = BitVec.twoPow 32 wkupintBit then .ok .svcWkupint
  else .error .notOneService

/-- EPNUM, bits 3:0 of a receive status word (30_encoding R85). -/
def rxEpnum (w : Word) : BitVec 4 := w.extractLsb' 0 4

/-- BCNT, bits 14:4 of a receive status word (30_encoding R85). -/
def rxBcnt (w : Word) : BitVec 11 := w.extractLsb' 4 11

/-- DPID, bits 16:15 of a receive status word (30_encoding R85). -/
def rxDpid (w : Word) : BitVec 2 := w.extractLsb' 15 2

/-- PKTSTS, bits 20:17 of a receive status word (30_encoding R85). -/
def rxPktsts (w : Word) : BitVec 4 := w.extractLsb' 17 4

/-- FRMNUM, bits 24:21 of a receive status word (30_encoding R85). -/
def rxFrmnum (w : Word) : BitVec 4 := w.extractLsb' 21 4

/-- The receive entry of a status word, by PKTSTS; the reserved kinds are no entry (30_encoding R85). The receive
service does not look at bits 31:25 (42_bus_event_handler R108, log 26), and neither does this decoder. -/
def decodeRx (w : Word) : Except DecodeRefusal Instr :=
  match (rxPktsts w).toNat with
  | 1 => .ok (.rxGlobalOutNak (rxEpnum w) (rxBcnt w) (rxDpid w) (rxFrmnum w))
  | 2 => .ok (.rxOutData (rxEpnum w) (rxBcnt w) (rxDpid w) (rxFrmnum w))
  | 3 => .ok (.rxOutXferDone (rxEpnum w) (rxBcnt w) (rxDpid w) (rxFrmnum w))
  | 4 => .ok (.rxSetupDone (rxEpnum w) (rxBcnt w) (rxDpid w) (rxFrmnum w))
  | 6 => .ok (.rxSetupData (rxEpnum w) (rxBcnt w) (rxDpid w) (rxFrmnum w))
  | _ => .error .reservedKind

/-- XFRC of an endpoint event register, IN and OUT (30_encoding R84). -/
def xfrcBit : Nat := 0
/-- TXFE of an IN endpoint event register (30_encoding R84). -/
def txfeBit : Nat := 7
/-- STUP of an OUT endpoint event register (30_encoding R84). -/
def stupBit : Nat := 3

/-- The event of IN endpoint e whose register has exactly one event bit set (30_encoding R84). -/
def decodeInEvent (e : Ep) (w : Word) : Except DecodeRefusal Instr :=
  if w = BitVec.twoPow 32 xfrcBit then .ok (.iepXfrc e)
  else if w = BitVec.twoPow 32 txfeBit then .ok (.iepTxfe e)
  else .error .notOneEvent

/-- The event of OUT endpoint e whose register has exactly one event bit set (30_encoding R84). -/
def decodeOutEvent (e : Ep) (w : Word) : Except DecodeRefusal Instr :=
  if w = BitVec.twoPow 32 xfrcBit then .ok (.oepXfrc e)
  else if w = BitVec.twoPow 32 stupBit then .ok (.oepStup e)
  else .error .notOneEvent

/-- A decoder of single words, on a list. -/
def onFirstWord (f : Word → Except DecodeRefusal Instr) : List Word → Except DecodeRefusal Instr
  | [] => .error .truncated
  | w :: _ => f w

/-- The decoder of each space. -/
def decodeIn : Space → List Word → Except DecodeRefusal Instr
  | .port => decodeCommand
  | .primitive => decodePrimitive
  | .gintsts => onFirstWord decodeService
  | .rxsts => onFirstWord decodeRx
  | .diepint e => onFirstWord (decodeInEvent e)
  | .doepint e => onFirstWord (decodeOutEvent e)

/-! ## The encoder -/

/-- A command word from its fields (30_encoding R71). -/
def commandWord (op : BitVec 5) (e : Ep) (ty : BitVec 2) (arg : BitVec 22) : Word :=
  op ++ (BitVec.ofFin (w := 3) e ++ (ty ++ arg))

/-- A receive status word from its fields (30_encoding R85). -/
def rxStatusWord (epnum : BitVec 4) (bcnt : BitVec 11) (dpid : BitVec 2) (pktsts frmnum : BitVec 4) : Word :=
  (0 : BitVec 7) ++ (frmnum ++ (pktsts ++ (dpid ++ (bcnt ++ epnum))))

/-- PKTSTS of OUT data (30_encoding R85). -/
def kindOutData : BitVec 4 := 2
/-- PKTSTS of OUT transfer complete (30_encoding R85). -/
def kindOutXferDone : BitVec 4 := 3
/-- PKTSTS of setup phase done (30_encoding R85). -/
def kindSetupDone : BitVec 4 := 4
/-- PKTSTS of SETUP data (30_encoding R85). -/
def kindSetupData : BitVec 4 := 6
/-- PKTSTS of global OUT NAK (30_encoding R85). -/
def kindGlobalOutNak : BitVec 4 := 1

/-- The OP of a command or a primitive (30_encoding R74). -/
def Instr.op : Instr → Option (BitVec 5)
  | .init => some 1
  | .connect => some 2
  | .disconnect => some 3
  | .setRxFifoSize _ => some 4
  | .setTxFifoSize _ _ => some 5
  | .configureInEp _ _ _ => some 6
  | .configureOutEp _ _ _ => some 7
  | .inTransfer _ _ _ _ => some 8
  | .outTransfer _ _ _ _ => some 9
  | .setupTransfer _ _ _ _ => some 10
  | .setDeviceAddress _ => some 11
  | .stallInEp _ => some 12
  | .stallOutEp _ => some 13
  | .disableInEp _ => some 14
  | .disableOutEp _ => some 15
  | .readPacket _ _ => some 24
  | .writePacket _ _ _ => some 25
  | .dumpPacket _ => some 26
  | .svcUsbrst | .svcEnumdne | .svcRxflvl | .svcIepint => none
  | .svcOepint | .svcIisoixfr | .svcIpxfr | .svcWkupint => none
  | .rxGlobalOutNak _ _ _ _ | .rxOutData _ _ _ _ | .rxOutXferDone _ _ _ _ => none
  | .rxSetupDone _ _ _ _ | .rxSetupData _ _ _ _ => none
  | .iepXfrc _ | .iepTxfe _ | .oepXfrc _ | .oepStup _ => none

/-- The words of an instruction in its space, the first word first (30_encoding R70, R71, R83, R84, R85). -/
def encode : Instr → List Word
  | .init => [commandWord 1 0 0 0]
  | .connect => [commandWord 2 0 0 0]
  | .disconnect => [commandWord 3 0 0 0]
  | .setRxFifoSize words => [commandWord 4 0 0 (words.setWidth 22)]
  | .setTxFifoSize e words => [commandWord 5 e 0 (words.setWidth 22)]
  | .configureInEp e ty mps => [commandWord 6 e ty.code (mps.setWidth 22)]
  | .configureOutEp e ty mps => [commandWord 7 e ty.code (mps.setWidth 22)]
  | .inTransfer e size buf tmo => [commandWord 8 e 0 (size.setWidth 22), buf, tmo]
  | .outTransfer e size buf tmo => [commandWord 9 e 0 (size.setWidth 22), buf, tmo]
  | .setupTransfer e size buf tmo => [commandWord 10 e 0 (size.setWidth 22), buf, tmo]
  | .setDeviceAddress addr => [commandWord 11 0 0 (addr.setWidth 22)]
  | .stallInEp e => [commandWord 12 e 0 0]
  | .stallOutEp e => [commandWord 13 e 0 0]
  | .disableInEp e => [commandWord 14 e 0 0]
  | .disableOutEp e => [commandWord 15 e 0 0]
  | .readPacket dst size => [commandWord 24 0 0 0, dst, BitVec.ofNat 32 size]
  | .writePacket e src size => [commandWord 25 e 0 0, src, BitVec.ofNat 32 size]
  | .dumpPacket size => [commandWord 26 0 0 0, BitVec.ofNat 32 size]
  | .svcUsbrst => [BitVec.twoPow 32 usbrstBit]
  | .svcEnumdne => [BitVec.twoPow 32 enumdneBit]
  | .svcRxflvl => [BitVec.twoPow 32 rxflvlBit]
  | .svcIepint => [BitVec.twoPow 32 iepintBit]
  | .svcOepint => [BitVec.twoPow 32 oepintBit]
  | .svcIisoixfr => [BitVec.twoPow 32 iisoixfrBit]
  | .svcIpxfr => [BitVec.twoPow 32 ipxfrBit]
  | .svcWkupint => [BitVec.twoPow 32 wkupintBit]
  | .rxGlobalOutNak e bcnt dpid frm => [rxStatusWord e bcnt dpid kindGlobalOutNak frm]
  | .rxOutData e bcnt dpid frm => [rxStatusWord e bcnt dpid kindOutData frm]
  | .rxOutXferDone e bcnt dpid frm => [rxStatusWord e bcnt dpid kindOutXferDone frm]
  | .rxSetupDone e bcnt dpid frm => [rxStatusWord e bcnt dpid kindSetupDone frm]
  | .rxSetupData e bcnt dpid frm => [rxStatusWord e bcnt dpid kindSetupData frm]
  | .iepXfrc _ => [BitVec.twoPow 32 xfrcBit]
  | .iepTxfe _ => [BitVec.twoPow 32 txfeBit]
  | .oepXfrc _ => [BitVec.twoPow 32 xfrcBit]
  | .oepStup _ => [BitVec.twoPow 32 stupBit]

/-! ## The assembler lines of 30_encoding R89 and R90 -/

/-- A line of the spec's assembler: a command, or the one pseudo-instruction (30_encoding R90). -/
inductive AsmLine where
  | command (i : Instr)
  | sendZlp (e : Ep) (tmo : Word)
  deriving DecidableEq, Repr

/-- The command a line stands for: SEND_ZLP is a zero-size IN_TRANSFER with buffer 0 (30_encoding R90). -/
def AsmLine.expand : AsmLine → Instr
  | .command i => i
  | .sendZlp e tmo => .inTransfer e 0 0 tmo

/-- The words of a line (30_encoding R89). -/
def AsmLine.words (l : AsmLine) : List Word := encode l.expand

/-- The keyword of an endpoint type (30_encoding R89). -/
def EpType.keyword : EpType → String
  | .control => "control"
  | .isochronous => "isochronous"
  | .bulk => "bulk"
  | .interrupt => "interrupt"

/-- The text of a line, numbers in decimal (30_encoding R89, R90); the block's own selections have none. -/
def AsmLine.text : AsmLine → Option String
  | .sendZlp e tmo => some ("SEND_ZLP ep=" ++ toString e.val ++ ", timeout=" ++ toString tmo.toNat)
  | .command i =>
    let ep (e : Ep) : String := " ep=" ++ toString e.val
    let xfer (name : String) (e : Ep) (size : BitVec 19) (buf tmo : Word) : String :=
      name ++ ep e ++ ", buf=" ++ toString buf.toNat ++ ", size=" ++ toString size.toNat
        ++ ", timeout=" ++ toString tmo.toNat
    let conf (name : String) (e : Ep) (ty : EpType) (mps : BitVec 11) : String :=
      name ++ ep e ++ ", type=" ++ ty.keyword ++ ", mps=" ++ toString mps.toNat
    match i with
    | .init => some "INIT"
    | .connect => some "CONNECT"
    | .disconnect => some "DISCONNECT"
    | .setRxFifoSize words => some ("SET_RX_FIFO_SIZE words=" ++ toString words.toNat)
    | .setTxFifoSize e words => some ("SET_TX_FIFO_SIZE" ++ ep e ++ ", words=" ++ toString words.toNat)
    | .configureInEp e ty mps => some (conf "CONFIGURE_IN_EP" e ty mps)
    | .configureOutEp e ty mps => some (conf "CONFIGURE_OUT_EP" e ty mps)
    | .inTransfer e size buf tmo => some (xfer "IN_TRANSFER" e size buf tmo)
    | .outTransfer e size buf tmo => some (xfer "OUT_TRANSFER" e size buf tmo)
    | .setupTransfer e size buf tmo => some (xfer "SETUP_TRANSFER" e size buf tmo)
    | .setDeviceAddress addr => some ("SET_DEVICE_ADDRESS addr=" ++ toString addr.toNat)
    | .stallInEp e => some ("STALL_IN_EP" ++ ep e)
    | .stallOutEp e => some ("STALL_OUT_EP" ++ ep e)
    | .disableInEp e => some ("DISABLE_IN_EP" ++ ep e)
    | .disableOutEp e => some ("DISABLE_OUT_EP" ++ ep e)
    | .readPacket _ _ | .writePacket _ _ _ | .dumpPacket _ => none
    | .svcUsbrst | .svcEnumdne | .svcRxflvl | .svcIepint => none
    | .svcOepint | .svcIisoixfr | .svcIpxfr | .svcWkupint => none
    | .rxGlobalOutNak _ _ _ _ | .rxOutData _ _ _ _ | .rxOutXferDone _ _ _ _ => none
    | .rxSetupDone _ _ _ _ | .rxSetupData _ _ _ _ => none
    | .iepXfrc _ | .iepTxfe _ | .oepXfrc _ | .oepStup _ => none

/-! ## One word of the opcode table -/

/-- The words of a table row's bits: bit 0 is the least significant bit of the first word, the bits above `nbits` are
0, and four words hold the longest instruction. -/
def tableWords (nbits w : Nat) : List Word :=
  let v := w % 2 ^ nbits
  [BitVec.ofNat 32 v, BitVec.ofNat 32 (v >>> 32), BitVec.ofNat 32 (v >>> 64), BitVec.ofNat 32 (v >>> 96)]

/-- The answer of a decoder, or the answer of a later one. -/
def orElseDecode (a : Except DecodeRefusal Instr) (b : Option Instr) : Option Instr :=
  match a with
  | .ok i => some i
  | .error _ => b

/-- The instruction that the block's decoders read from a table row's word. A word whose OP is a command's belongs to
the command port alone. The table's other rows stand in words of other registers, so the other decoders are asked in
the order primitives, services, receive status, IN events, OUT events, the banked ones at endpoint 0 (log 14). -/
def decodeTableWord (nbits w : Nat) : Option Instr :=
  let ws := tableWords nbits w
  match decodeCommand ws with
  | .ok i => some i
  | .error .nonZeroField => none
  | .error _ =>
    orElseDecode (decodeIn .primitive ws) <| orElseDecode (decodeIn .gintsts ws) <|
      orElseDecode (decodeIn .rxsts ws) <| orElseDecode (decodeIn (.diepint 0) ws) <|
        orElseDecode (decodeIn (.doepint 0) ws) none

end Sys2Proof
end

