-- ==== Sys2Proof/Config.lean ====
section
/-! DEFINITION. The implementation parameters of 00_scope R7.

NUM_EP is a constant, 8 (`Ep`), which 92_eei_decisions D4 allows, and NUM_TASKS is the length of the state's task list.
The others form the record `Config`, which the state carries and no step writes, so that a statement about every
state holds for every value of every parameter (log 8). A limit has the width of the register field it bounds,
so that it cannot exceed what its field represents (30_encoding R87). -/

namespace Sys2Proof

/-- The parameters of 00_scope R7 that a step reads. -/
structure Config where
  /-- FIFO_MIN_WORDS: the least depth a FIFO is given. -/
  fifoMinWords : BitVec 16
  /-- FIFO_RAM_WORDS: the size of the FIFO RAM in 32-bit words. -/
  fifoRamWords : BitVec 16
  /-- MPS_EP0_SET: the maximum packet sizes of endpoint 0. A size outside the code table of 30_encoding R80 is refused
  whether listed or not, since it has no code. -/
  mpsEp0Set : List (BitVec 11)
  /-- MPS_MAX: the largest maximum packet size of an endpoint other than 0. -/
  mpsMax : BitVec 11
  /-- XFRSIZ_MAX(0). -/
  xfrsizMaxEp0 : BitVec 7
  /-- XFRSIZ_MAX(e) for e > 0. -/
  xfrsizMaxEpN : BitVec 19
  /-- PKTCNT_MAX_IN(0). -/
  pktcntMaxInEp0 : BitVec 2
  /-- PKTCNT_MAX_IN(e) for e > 0. -/
  pktcntMaxInEpN : BitVec 10
  /-- PKTCNT_MAX_OUT(0). -/
  pktcntMaxOutEp0 : BitVec 1
  /-- PKTCNT_MAX_OUT(e) for e > 0. -/
  pktcntMaxOutEpN : BitVec 10
  /-- STUPCNT_MAX. -/
  stupcntMax : BitVec 2
  /-- ADDR_BITS: the width of a buffer byte address, at most that of the BUF word (30_encoding R70). -/
  addrBits : Fin 33
  /-- CLOCK_BITS: the width of the millisecond clock (92_eei_decisions D43). -/
  clockBits : Nat
  /-- TRDT_FS: the turnaround value written at enumeration done. -/
  trdtFs : BitVec 4
  /-- CONNECT_RESTORES_GINT, the spec's OPEN parameter (92_eei_decisions D27). -/
  connectRestoresGint : Bool
  deriving DecidableEq, Repr

/-- The values that 00_scope R7 gives, defaults where it says so. -/
def Config.default : Config where
  fifoMinWords := 16
  fifoRamWords := 320
  mpsEp0Set := [8, 16, 32, 64]
  mpsMax := 2047
  xfrsizMaxEp0 := 127
  xfrsizMaxEpN := 524287
  pktcntMaxInEp0 := 3
  pktcntMaxInEpN := 1023
  pktcntMaxOutEp0 := 1
  pktcntMaxOutEpN := 1023
  stupcntMax := 3
  addrBits := 32
  clockBits := 32
  trdtFs := 6
  connectRestoresGint := true

/-- XFRSIZ_MAX(e). -/
def Config.xfrsizMax (c : Config) (e : Ep) : Nat :=
  if e = 0 then c.xfrsizMaxEp0.toNat else c.xfrsizMaxEpN.toNat

/-- PKTCNT_MAX_IN(e). -/
def Config.pktcntMaxIn (c : Config) (e : Ep) : Nat :=
  if e = 0 then c.pktcntMaxInEp0.toNat else c.pktcntMaxInEpN.toNat

/-- PKTCNT_MAX_OUT(e). -/
def Config.pktcntMaxOut (c : Config) (e : Ep) : Nat :=
  if e = 0 then c.pktcntMaxOutEp0.toNat else c.pktcntMaxOutEpN.toNat

end Sys2Proof
end

