-- ==== Sys2Proof/Machine/Memory.lean ====
section
/-! DEFINITION. The buffer memory (20_memory R52): 2^ADDR_BITS bytes, byte access.

It is held as the list of the cells that differ from what an unlisted address reads as, addresses strictly rising. The
spec makes the initial contents a parameter of the launch; the byte an unlisted address reads as is the model's (log 6). -/

namespace Sys2Proof.Machine

/-- The cells of the buffer memory that are listed. -/
abbrev Memory := List Host.Cell

/-- The number of bytes the buffer memory has (20_memory R52). -/
def memBytes (cfg : Config) : Nat := 2 ^ cfg.addrBits.val

/-- What an unlisted address reads as (log 6). -/
def unlistedByte : Byte := 0

/-- Read one byte (00_scope R14, `MemRead(a, 1)`). -/
def Memory.readByte : Memory → Nat → Byte
  | [], _ => unlistedByte
  | (a, v) :: rest, k => if a = k then v else Memory.readByte rest k

/-- Write one byte (00_scope R14, `MemWrite(a, 1, v)`), keeping the canonical form. -/
def Memory.writeByte : Memory → Nat → Byte → Memory
  | [], k, v => if v = unlistedByte then [] else [(k, v)]
  | (a, x) :: rest, k, v =>
    if k < a then
      if v = unlistedByte then (a, x) :: rest else (k, v) :: (a, x) :: rest
    else if k = a then
      if v = unlistedByte then rest else (a, v) :: rest
    else (a, x) :: Memory.writeByte rest k v

/-- Write bytes at rising addresses from `a`. -/
def Memory.writeBytes : Memory → Nat → List Byte → Memory
  | m, _, [] => m
  | m, a, b :: bs => Memory.writeBytes (Memory.writeByte m a b) (a + 1) bs

/-- Read `n` bytes at rising addresses from `a`. -/
def Memory.readBytes (m : Memory) : Nat → Nat → List Byte
  | _, 0 => []
  | a, n + 1 => Memory.readByte m a :: Memory.readBytes m (a + 1) n

/-- The canonical form: addresses strictly rising and inside a memory of `size` bytes, and no cell that equals an unlisted
one. -/
def Memory.wf (size : Nat) : Memory → Bool
  | [] => true
  | (a, v) :: rest =>
    decide (v ≠ unlistedByte) && decide (a < size) && rest.all (fun c => decide (a < c.1)) && Memory.wf size rest

/-- Whether the bytes `[a, a + n)` exist: an address never wraps (20_memory R53). -/
def inSpace (cfg : Config) (a n : Nat) : Bool := decide (a + n ≤ memBytes cfg)

end Sys2Proof.Machine
end

