-- ==== Sys2Proof/Machine/PerEp.lean ====
section
/-! DEFINITION. One value for each endpoint number: the "indexed array of strongly-typed register-bank handles (one per
endpoint, bounds-checked 0-7)" of 10_state section 3. -/

namespace Sys2Proof.Machine

/-- Eight values, one per endpoint. -/
structure PerEp (α : Type) where
  ep0 : α
  ep1 : α
  ep2 : α
  ep3 : α
  ep4 : α
  ep5 : α
  ep6 : α
  ep7 : α
  deriving DecidableEq, Repr, Inhabited

/-- The same value for every endpoint. -/
def PerEp.all {α : Type} (a : α) : PerEp α := ⟨a, a, a, a, a, a, a, a⟩

/-- The value of endpoint `e`. -/
def PerEp.get {α : Type} (t : PerEp α) (e : Ep) : α :=
  match e with
  | 0 => t.ep0
  | 1 => t.ep1
  | 2 => t.ep2
  | 3 => t.ep3
  | 4 => t.ep4
  | 5 => t.ep5
  | 6 => t.ep6
  | 7 => t.ep7

/-- The values with endpoint `e`'s replaced. -/
def PerEp.set {α : Type} (t : PerEp α) (e : Ep) (a : α) : PerEp α :=
  match e with
  | 0 => { t with ep0 := a }
  | 1 => { t with ep1 := a }
  | 2 => { t with ep2 := a }
  | 3 => { t with ep3 := a }
  | 4 => { t with ep4 := a }
  | 5 => { t with ep5 := a }
  | 6 => { t with ep6 := a }
  | 7 => { t with ep7 := a }

/-- The values, each passed through `f`. -/
def PerEp.map {α β : Type} (f : α → β) (t : PerEp α) : PerEp β :=
  ⟨f t.ep0, f t.ep1, f t.ep2, f t.ep3, f t.ep4, f t.ep5, f t.ep6, f t.ep7⟩

end Sys2Proof.Machine
end

