-- ==== Sys2Proof/Machine/State.lean ====
section
/-! DEFINITION. The state of the block: the tuple of 10_state R18, the parameters of 00_scope R7, and the model's own
fields for the schedule and the draws (INVENTORY.md, State). It is plain data. A 1-bit field is a `Bool`, true for 1. -/

namespace Sys2Proof.Machine

/-! ## Outcomes that the state records (10_state R49, 60_exceptions R150, R151) -/

/-- FaultReason (10_state R49). A fault marks the run in `State.fault` and does not stop the machine (60_exceptions
R151), so none of these is an outcome of a step. -/
inductive FaultReason where
  /-- An arm claimed byte `a` while another Armed descriptor owned it (20_memory R54). -/
  | bufferRace (a : Word)
  /-- A pop from an empty receive FIFO (40_fifo_marshaling R92, R94). -/
  | rxUnderflow
  /-- A read of `task[t].res` while it is None (10_state R47). -/
  | unwrittenResult (t : Nat)
  deriving DecidableEq, Repr

/-- The refusals of 60_exceptions R150. Each one sets `State.refused` and has no other effect of the spec's. -/
inductive RefuseReason where
  | reservedOp
  | nonZeroField
  | internalOp
  | notInited
  | reInit
  | reconfigureInFlight
  | ep0NotControl
  | badMps
  | resizeBusy
  | fifoAlloc
  | notControl
  | tooLarge
  | isoMultiPacket
  | bufWrap
  deriving DecidableEq, Repr

/-- The reasons the machine itself stops. -/
inductive Fault where
  /-- Raised by READ_PACKET and WRITE_PACKET when the byte range of the operands leaves the 2^ADDR_BITS bytes that exist.
  Addresses never wrap (20_memory R53), so the spec gives such an access no effect. Safe: the model stops (log 13). -/
  | addressSpace
  deriving DecidableEq, Repr

/-- The reasons the model itself gives an instruction no meaning. The spec's own refusals are no outcome of a step: they
set `State.refused`, and the machine goes on (60_exceptions R150). -/
inductive Refusal where
  /-- Raised by an arm of `exec` that has no meaning yet. Safe: the model stops. No arm raises it. -/
  | notModelled (mnemonic : String)
  deriving DecidableEq, Repr

/-! ## Descriptors (10_state R40) -/

/-- The cause of a failed transfer: RESET is the only one (10_state R40, 90_conflicts C7). -/
inductive FailCause where
  | reset
  deriving DecidableEq, Repr

/-- The status of a transfer descriptor (10_state R40, 90_conflicts C1). -/
inductive Status where
  | idle
  | armed
  | complete (n : Word)
  | failed (err : FailCause)
  deriving DecidableEq, Repr

/-- A transfer descriptor (10_state R40). -/
structure Descriptor where
  status : Status
  buf : Word
  req : Word
  off : Word
  deriving DecidableEq, Repr

/-- The descriptor "created empty at driver init" (10_state R40). -/
def Descriptor.empty : Descriptor := ⟨.idle, 0, 0, 0⟩

/-! ## Register banks (10_state R20 to R36) -/

/-- The IN register bank of one endpoint (10_state R32). -/
structure InBank where
  mpsiz : BitVec 11
  usbaep : Bool
  eptyp : EpType
  txfnum : BitVec 4
  stall : Bool
  nak : Bool
  epena : Bool
  xfrsiz : BitVec 19
  pktcnt : BitVec 10
  mcnt : BitVec 2
  xfrc : Bool
  deriving DecidableEq, Repr

/-- Every field 0 (10_state R32). -/
def InBank.zero : InBank := ⟨0, false, .control, 0, false, false, false, 0, 0, 0, false⟩

/-- The OUT register bank of one endpoint (10_state R35). -/
structure OutBank where
  mpsiz : BitVec 11
  usbaep : Bool
  eptyp : EpType
  stall : Bool
  nak : Bool
  epena : Bool
  xfrsiz : BitVec 19
  pktcnt : BitVec 10
  stupcnt : BitVec 2
  xfrc : Bool
  stup : Bool
  deriving DecidableEq, Repr

/-- Every field 0 (10_state R35). -/
def OutBank.zero : OutBank := ⟨0, false, .control, false, false, false, 0, 0, 0, false, false⟩

/-- The controller-global registers (10_state R20 to R31). -/
structure CoreRegs where
  physel : Bool
  fdmod : Bool
  trdt : BitVec 4
  gint : Bool
  gintmsk : BitVec 32
  usbrst : Bool
  enumdne : Bool
  iisoixfr : Bool
  ipxfr : Bool
  wkupint : Bool
  rxfd : BitVec 16
  txsa : PerEp (BitVec 16)
  txfd : PerEp (BitVec 16)
  dspd : BitVec 2
  dad : BitVec 7
  sdis : Bool
  ginnak : Bool
  clkgate : Bool
  diepmskXfrcm : Bool
  doepmskXfrcm : Bool
  doepmskStupm : Bool
  iepm : PerEp Bool
  oepm : PerEp Bool
  txfem : PerEp Bool
  deriving DecidableEq, Repr

/-- Every field 0: the value the model gives the unspecified registers before `init` (log 4). -/
def CoreRegs.zero : CoreRegs where
  physel := false
  fdmod := false
  trdt := 0
  gint := false
  gintmsk := 0
  usbrst := false
  enumdne := false
  iisoixfr := false
  ipxfr := false
  wkupint := false
  rxfd := 0
  txsa := .all 0
  txfd := .all 0
  dspd := 0
  dad := 0
  sdis := false
  ginnak := false
  clkgate := false
  diepmskXfrcm := false
  doepmskXfrcm := false
  doepmskStupm := false
  iepm := .all false
  oepm := .all false
  txfem := .all false

/-! ## Notifications and tasks (10_state R43, R46) -/

/-- A bus-level notification (10_state R43); the tags are 30_encoding R82's, in order 0, 1, 2. -/
inductive BusEvent where
  | reset
  | addressAssigned (addr : BitVec 7)
  | isoIncomplete
  deriving DecidableEq, Repr

/-- The tag of a notification (30_encoding R82). -/
def BusEvent.tag : BusEvent → Nat
  | .reset => 0
  | .addressAssigned _ => 1
  | .isoIncomplete => 2

/-- The phase of a caller task (10_state R46). -/
inductive Phase where
  | ready
  | waiting (dir : Dir) (e : Ep) (t0 : Nat) (tmo : Word)
  | done
  deriving DecidableEq, Repr

/-- A caller task (10_state R46, R47). `prog` is the command list, as the words the command port reads. -/
structure Task where
  prog : List Word
  pc : Nat
  phase : Phase
  res : Option Word
  deriving DecidableEq, Repr

/-- A task at power-on (70_reset_and_hazards R165). -/
def Task.start (prog : List Word) : Task := ⟨prog, 0, .ready, none⟩

/-! ## Moves and draws (00_scope R9, R11, 45_bus_agent) -/

/-- The moves of the bus agent (45_bus_agent R138 to R145). -/
inductive BusMove where
  | reset
  | enumdone
  | iso (dir : Dir)
  | wake
  | out (e : Ep) (data : List Byte) (dpid : BitVec 2) (frm : BitVec 4)
  | setup (e : Ep) (data : List Byte) (frm : BitVec 4)
  | setupdone (e : Ep)
  | take (e : Ep)
  deriving DecidableEq, Repr

/-- A move of one agent (00_scope R9), or the outside's read of a task's result register (60_exceptions R151, log 21). -/
inductive Move where
  | task (t : Nat)
  | dispatch
  | bus (m : BusMove)
  | tick
  | observe (t : Nat)
  deriving DecidableEq, Repr, Inhabited

/-- The draws a step may take (00_scope R11): whether `init`'s spin loops end within their caps (44_bus_control R133),
the value TRDT has after `init` (10_state R20), and for each endpoint the padding bytes of a packet's last word
(20_memory R58): byte k of `pad e` is the padding byte at position k. DPID and FRMNUM are part of the bus moves. -/
structure Draws where
  initSpinOk : Bool
  trdt : BitVec 4
  pad : PerEp Word
  deriving DecidableEq, Repr, Inhabited

/-- One turn of the schedule: the move that comes next and the draws its step takes. -/
structure Turn where
  move : Move
  draws : Draws
  deriving DecidableEq, Repr, Inhabited

/-! ## The state -/

/-- The state `S` of 10_state R18, the parameters, and the model's own fields (from `refusedBy` on). -/
structure State where
  /-- The parameters of 00_scope R7, written by no step (log 8). -/
  cfg : Config
  /-- 10_state R19. -/
  inited : Bool
  /-- 10_state R20 to R31. -/
  core : CoreRegs
  /-- 10_state R32. -/
  iep : PerEp InBank
  /-- 10_state R35. -/
  oep : PerEp OutBank
  /-- 10_state R37. -/
  rxq : List Word
  /-- 10_state R38. -/
  txq : PerEp (List Word)
  /-- 10_state R40. -/
  din : PerEp Descriptor
  /-- 10_state R40. -/
  dout : PerEp Descriptor
  /-- 10_state R42. -/
  busActive : Bool
  /-- 10_state R43, oldest first. -/
  events : List BusEvent
  /-- 10_state R44. -/
  setupPending : PerEp Bool
  /-- 10_state R45, oldest first. -/
  busTx : List (Ep × List Byte)
  /-- 10_state R46; NUM_TASKS is the length. -/
  tasks : List Task
  /-- 10_state R48, a number below 2^CLOCK_BITS. -/
  now : Nat
  /-- 20_memory R52. -/
  mem : Memory
  /-- 10_state R49. -/
  fault : Option FaultReason
  /-- 10_state R49. -/
  refused : Bool
  /-- The name of the latest refusal, which the spec's bit does not keep (log 11). -/
  refusedBy : Option RefuseReason
  /-- The task whose command is being run (log 1). -/
  cur : Nat
  /-- The draws offered to the step being taken (log 3). -/
  draws : Draws
  /-- The turns still to be taken (log 1). -/
  sched : List Turn
  /-- How many turns were drawn freely (log 1). -/
  turns : Nat
  deriving DecidableEq, Repr

/-- The power-on state (70_reset_and_hazards R165) for given parameters, command lists, clock value and memory: the
launch parameters and the draw that the spec leaves to the start of a run. -/
def State.powerOn (cfg : Config) (progs : List (List Word)) (now0 : Nat) (mem : Memory) : State where
  cfg := cfg
  inited := false
  core := .zero
  iep := .all .zero
  oep := .all .zero
  rxq := []
  txq := .all []
  din := .all .empty
  dout := .all .empty
  busActive := false
  events := []
  setupPending := .all false
  busTx := []
  tasks := progs.map Task.start
  now := now0 % 2 ^ cfg.clockBits
  mem := mem
  fault := none
  refused := false
  refusedBy := none
  cur := 0
  draws := ⟨true, 0, .all 0⟩
  sched := []
  turns := 0

/-- The state after reset: power-on with the default parameters, one task with no command, the clock at 0 and memory
with nothing listed (log 4, log 5, log 6, log 7). -/
def State.reset : State := State.powerOn Config.default [[]] 0 []

end Sys2Proof.Machine
end

