-- ==== Sys2Proof/Machine/Flags.lean ====
section
/-! DEFINITION. Every flag the spec derives: the interrupt status and its mask (10_state R23, R24), the endpoint event
bits (R33, R34, R36) and the predicates over a descriptor. -/

namespace Sys2Proof.Machine

/-- A flag at a bit of a 32-bit register word. -/
def flagAt (b : Bool) (k : Nat) : Word := if b then BitVec.twoPow 32 k else 0

/-- The IN "FIFO empty" bit, a level (10_state R33). -/
def txfe (s : State) (e : Ep) : Bool := (s.txq.get e).isEmpty

/-- The words free in an IN endpoint's transmit FIFO (30_encoding R87, INEPTFSAV). -/
def txAvailWords (s : State) (e : Ep) : Nat := (s.core.txfd.get e).toNat - (s.txq.get e).length

/-- The bytes reported as available in an IN endpoint's transmit FIFO (10_state R33). -/
def txAvailBytes (s : State) (e : Ep) : Nat := 4 * txAvailWords s e

/-- An IN endpoint's enabled "transfer complete" (the first half of 10_state R34). -/
def inXfrcFlag (s : State) (e : Ep) : Bool := (s.iep.get e).xfrc && s.core.diepmskXfrcm

/-- An IN endpoint's enabled "FIFO empty" (the second half of 10_state R34). -/
def inTxfeFlag (s : State) (e : Ep) : Bool := txfe s e && s.core.txfem.get e

/-- `in_pending(e)`: the IN endpoint is flagged (10_state R34). -/
def inPending (s : State) (e : Ep) : Bool := s.core.iepm.get e && (inXfrcFlag s e || inTxfeFlag s e)

/-- An OUT endpoint's enabled "transfer complete" (the first half of 10_state R36). -/
def outXfrcFlag (s : State) (e : Ep) : Bool := (s.oep.get e).xfrc && s.core.doepmskXfrcm

/-- An OUT endpoint's enabled "setup phase done" (the second half of 10_state R36). -/
def outStupFlag (s : State) (e : Ep) : Bool := (s.oep.get e).stup && s.core.doepmskStupm

/-- `out_pending(e)`: the OUT endpoint is flagged (10_state R36). -/
def outPending (s : State) (e : Ep) : Bool := s.core.oepm.get e && (outXfrcFlag s e || outStupFlag s e)

/-- RXFLVL (10_state R23). -/
def rxflvl (s : State) : Bool := !s.rxq.isEmpty

/-- IEPINT (10_state R23). -/
def iepint (s : State) : Bool := allEps.any (inPending s)

/-- OEPINT (10_state R23). -/
def oepint (s : State) : Bool := allEps.any (outPending s)

/-- `GINTSTS(S)`: the eight bits at their positions, every other bit 0 (10_state R24, 30_encoding R83). -/
def gintsts (s : State) : Word :=
  flagAt (rxflvl s) rxflvlBit ||| flagAt s.core.usbrst usbrstBit ||| flagAt s.core.enumdne enumdneBit
    ||| flagAt (iepint s) iepintBit ||| flagAt (oepint s) oepintBit ||| flagAt s.core.iisoixfr iisoixfrBit
    ||| flagAt s.core.ipxfr ipxfrBit ||| flagAt s.core.wkupint wkupintBit

/-- `masked(S)`, the word the dispatcher samples (10_state R24). -/
def masked (s : State) : Word := if s.core.gint then gintsts s &&& s.core.gintmsk else 0

/-- GINTMSK_BASE (30_encoding R83). -/
def gintmskBase : Word := 0x803C3010

/-- Whether a descriptor's status is Armed. -/
def Descriptor.isArmed (d : Descriptor) : Bool := decide (d.status = .armed)

end Sys2Proof.Machine
end

