-- ==== Sys2Proof/Machine/Operands.lean ====
section
/-! DEFINITION. Operand values: byte order and packing (00_scope R15, 20_memory R56), maximum packet sizes (30_encoding
R80), packet counts (43_transfer_api R116), allocation checks (41_endpoint_config R101) and buffer overlap (20_memory
R54). -/

namespace Sys2Proof.Machine

/-! ## Counts and packing -/

/-- `ceil_div(a, b)` for b >= 1 (00_scope R13). -/
def ceilDiv (a b : Nat) : Nat := (a + b - 1) / b

/-- The 32-bit words that `n` bytes take (40_fifo_marshaling R91). -/
def wordsFor (n : Nat) : Nat := ceilDiv n 4

/-- Byte k of a word is bits [8k+7:8k] (00_scope R15). -/
def byteAt (w : Word) (k : Nat) : Byte := w.extractLsb' (8 * k) 8

/-- The word with the given bytes, the first the least significant (00_scope R15). -/
def wordOfBytes (b0 b1 b2 b3 : Byte) : Word := b3 ++ (b2 ++ (b1 ++ b0))

/-- The four bytes of a word, the least significant first. -/
def bytesOfWord (w : Word) : List Byte := [byteAt w 0, byteAt w 1, byteAt w 2, byteAt w 3]

/-- The FIFO words of a packet's bytes; byte k of `pad` is the padding byte at position k of the last word (20_memory
R56, R58). -/
def packBytes (pad : Word) : List Byte → List Word
  | [] => []
  | [b0] => [wordOfBytes b0 (byteAt pad 1) (byteAt pad 2) (byteAt pad 3)]
  | [b0, b1] => [wordOfBytes b0 b1 (byteAt pad 2) (byteAt pad 3)]
  | [b0, b1, b2] => [wordOfBytes b0 b1 b2 (byteAt pad 3)]
  | b0 :: b1 :: b2 :: b3 :: rest => wordOfBytes b0 b1 b2 b3 :: packBytes pad rest

/-- The bytes of FIFO words in order (20_memory R56). -/
def unpackWords (ws : List Word) : List Byte := ws.flatMap bytesOfWord

/-! ## Maximum packet sizes (30_encoding R80, 41_endpoint_config R96, R97) -/

/-- `mps_code`: endpoint 0's 2-bit code of a byte count, where it has one (30_encoding R80). -/
def mpsCode (mps : Nat) : Option (BitVec 2) :=
  if mps = 8 then some 3 else if mps = 16 then some 2 else if mps = 32 then some 1 else if mps = 64 then some 0
  else none

/-- `mps_decode(0, c)` (30_encoding R80). -/
def mpsOfCode (c : BitVec 2) : Nat := if c = 0 then 64 else if c = 1 then 32 else if c = 2 then 16 else 8

/-- `mps_decode(e, v)` (30_encoding R80). -/
def mpsDecode (e : Ep) (v : BitVec 11) : Nat := if e = 0 then mpsOfCode (v.setWidth 2) else v.toNat

/-- `mps_in(e)` (10_state R39). -/
def mpsIn (s : State) (e : Ep) : Nat := mpsDecode e (s.iep.get e).mpsiz

/-- `mps_out(e)` (10_state R39). -/
def mpsOut (s : State) (e : Ep) : Nat := mpsDecode e (s.oep.get e).mpsiz

/-- The value of MPSIZ that a configure command writes, or its refusal (41_endpoint_config R96, R97). -/
def mpsizFor (cfg : Config) (e : Ep) (ty : EpType) (mps : BitVec 11) : Except RefuseReason (BitVec 11) :=
  if e = 0 then
    if ty ≠ .control then .error .ep0NotControl
    else if mps ∉ cfg.mpsEp0Set then .error .badMps
    else
      match mpsCode mps.toNat with
      | some c => .ok (c.setWidth 11)
      | none => .error .badMps
  else if mps.toNat < 1 ∨ mps.toNat > cfg.mpsMax.toNat then .error .badMps
  else .ok mps

/-! ## Transfers (43_transfer_api) -/

/-- `packet_count(size, mps)` (43_transfer_api R116). -/
def packetCount (size mps : Nat) : Nat := max 1 (ceilDiv size mps)

/-- Check (5) of an IN arm: what the endpoint's fields cannot represent (43_transfer_api R120). -/
def inLimit (s : State) (e : Ep) (size : Nat) : Option RefuseReason :=
  let pc := packetCount size (mpsIn s e)
  if size > s.cfg.xfrsizMax e ∨ pc > s.cfg.pktcntMaxIn e then some .tooLarge
  else if (s.iep.get e).eptyp = .isochronous ∧ pc > 1 then some .isoMultiPacket
  else none

/-- The PKTCNT an OUT arm programs (43_transfer_api R121). -/
def outPktcnt (s : State) (e : Ep) (size : Nat) : Nat :=
  min (packetCount size (mpsOut s e)) (s.cfg.pktcntMaxOut e)

/-- The STUPCNT a SETUP arm programs (43_transfer_api R122). -/
def setupStupcnt (s : State) (e : Ep) (size : Nat) : Nat :=
  min (packetCount size (mpsOut s e)) s.cfg.stupcntMax.toNat

/-- The XFRSIZ an OUT or SETUP arm programs for `n` packets (43_transfer_api R121, R122). -/
def outXfrsiz (s : State) (e : Ep) (n : Nat) : Nat := min (n * mpsOut s e) (s.cfg.xfrsizMax e)

/-! ## Time (10_state R48, 43_transfer_api R123) -/

/-- The number of milliseconds after which the clock is back where it was. -/
def clockPeriod (cfg : Config) : Nat := 2 ^ cfg.clockBits

/-- The milliseconds from `t0` to `now`, `now -_CLOCK_BITS t0` (00_scope R13, 43_transfer_api R123). -/
def elapsed (cfg : Config) (now t0 : Nat) : Nat := (now + (clockPeriod cfg - t0 % clockPeriod cfg)) % clockPeriod cfg

/-! ## Buffer ownership (20_memory R54) -/

/-- The lowest address that two byte ranges share. -/
def overlapAt (b1 n1 b2 n2 : Nat) : Option Nat :=
  if max b1 b2 < min (b1 + n1) (b2 + n2) then some (max b1 b2) else none

/-- The Armed descriptors of one direction. -/
def armedOf (t : PerEp Descriptor) : List Descriptor := (allEps.map t.get).filter Descriptor.isArmed

/-- The Armed descriptors whose buffers an arm in direction `dir` must not overlap: at least one of the two is an OUT
descriptor (20_memory R54). -/
def rivals (s : State) (dir : Dir) : List Descriptor :=
  match dir with
  | .inn => armedOf s.dout
  | .out => armedOf s.dout ++ armedOf s.din

/-- The smaller of two addresses, where there is one. -/
def minAddr : Option Nat → Option Nat → Option Nat
  | none, b => b
  | some a, none => some a
  | some a, some b => some (min a b)

/-- The lowest address at which the buffer `[buf, buf + size)` overlaps a rival's (20_memory R54). -/
def raceAddr (s : State) (dir : Dir) (buf size : Nat) : Option Nat :=
  (rivals s dir).foldr (fun d acc => minAddr (overlapAt buf size d.buf.toNat d.req.toNat) acc) none

/-! ## FIFO allocation (20_memory R55, 41_endpoint_config R101) -/

/-- Two FIFO ranges, start and depth in words, share no word. -/
def rangesDisjoint (sa1 fd1 sa2 fd2 : Nat) : Bool := decide (sa1 + fd1 ≤ sa2) || decide (sa2 + fd2 ≤ sa1)

/-- `alloc_ok(RXFD', TXSA', TXFD')` for a RAM of `ram` words (41_endpoint_config R101). -/
def allocOk (ram rxfd : Nat) (txsa txfd : PerEp Nat) : Bool :=
  (allEps.all fun e =>
    decide (txfd.get e = 0) || (decide (rxfd ≤ txsa.get e) && decide (txsa.get e + txfd.get e ≤ ram)))
  && (allEps.all fun e => allEps.all fun k =>
    decide (e = k) || decide (txfd.get e = 0) || decide (txfd.get k = 0)
      || rangesDisjoint (txsa.get e) (txfd.get e) (txsa.get k) (txfd.get k))
  && decide (rxfd ≤ ram)

/-- The depth a FIFO-size command asks for: at least FIFO_MIN_WORDS (41_endpoint_config R99, R100). -/
def fifoDepth (cfg : Config) (words : BitVec 16) : Nat := max words.toNat cfg.fifoMinWords.toNat

/-- The start of endpoint e's transmit FIFO: RXFD plus the depths of the lower-numbered endpoints (41_endpoint_config
R100). -/
def txStart (s : State) (e : Ep) : Nat :=
  s.core.rxfd.toNat + ((allEps.filter (fun k => decide (k < e))).map fun k => (s.core.txfd.get k).toNat).sum

/-- The allocation registers as numbers. -/
def depthsOf (t : PerEp (BitVec 16)) : PerEp Nat := t.map BitVec.toNat

end Sys2Proof.Machine
end

