-- ==== Sys2Proof/Machine/Ops.lean ====
section
/-! DEFINITION. The named operations over the state: field updates, results, refusals and faults, the advance of a task,
and the control of a step that a fault ends.

The block has no trap mechanism (60_exceptions R148): what stands in for taking an exception is `refuse`, `raise` and
`returnRes`, one shared operation each; a task's return to its list is `advance`. -/

namespace Sys2Proof.Machine

/-! ## Field updates -/

/-- Replace the controller-global registers. -/
def State.setCore (s : State) (c : CoreRegs) : State := { s with core := c }

/-- Replace IN bank e. -/
def State.setIep (s : State) (e : Ep) (b : InBank) : State := { s with iep := s.iep.set e b }

/-- Replace OUT bank e. -/
def State.setOep (s : State) (e : Ep) (b : OutBank) : State := { s with oep := s.oep.set e b }

/-- Replace the receive FIFO. -/
def State.setRxq (s : State) (q : List Word) : State := { s with rxq := q }

/-- Replace the transmit FIFO of endpoint e. -/
def State.setTxq (s : State) (e : Ep) (q : List Word) : State := { s with txq := s.txq.set e q }

/-- Replace the IN descriptor of endpoint e. -/
def State.setDin (s : State) (e : Ep) (d : Descriptor) : State := { s with din := s.din.set e d }

/-- Replace the OUT descriptor of endpoint e. -/
def State.setDout (s : State) (e : Ep) (d : Descriptor) : State := { s with dout := s.dout.set e d }

/-- Replace the buffer memory. -/
def State.setMem (s : State) (m : Memory) : State := { s with mem := m }

/-- Replace task t. -/
def State.setTask (s : State) (t : Nat) (k : Task) : State := { s with tasks := s.tasks.set t k }

/-- `emit(tag)`: append to the bus-event log (10_state R43). -/
def State.emit (s : State) (ev : BusEvent) : State := { s with events := s.events ++ [ev] }

/-! ## The errors of a step (60_exceptions R148 to R151) -/

/-- `refuse(reason)`: set the sticky mark and change nothing else of the spec's state (10_state R49). -/
def refuse (r : RefuseReason) (s : State) : State := { s with refused := true, refusedBy := some r }

/-- `fault(reason)`: record the first fault; a later one changes nothing (10_state R49). -/
def raise (f : FaultReason) (s : State) : State :=
  { s with fault := match s.fault with | none => some f | some g => some g }

/-- The result codes of 30_encoding R81. -/
def codeBusy : Word := BitVec.ofInt 32 (-1)
/-- Timeout (30_encoding R81). -/
def codeTimeout : Word := BitVec.ofInt 32 (-2)
/-- Reset, alias Disabled (30_encoding R81). -/
def codeReset : Word := BitVec.ofInt 32 (-3)
/-- Fatal (30_encoding R81). -/
def codeFatal : Word := BitVec.ofInt 32 (-4)

/-! ## The issuing task (10_state R46, R47) -/

/-- Change the task whose command is being run. -/
def onCur (f : Task → Task) (s : State) : State :=
  match s.tasks[s.cur]? with
  | some k => s.setTask s.cur (f k)
  | none => s

/-- The task after its command completes: `pc` advances, and the phase is Done at the end of the list (10_state R46). -/
def Task.advance (k : Task) : Task :=
  { k with pc := k.pc + 1, phase := if (dropCommands (k.pc + 1) k.prog).isEmpty then .done else .ready }

/-- The issuing task's command completes. -/
def advance (s : State) : State := onCur Task.advance s

/-- The issuing task's command completes with a value in its result register: `return Ok(n)` and `return Err(code)`
(00_scope R14). -/
def returnRes (v : Word) (s : State) : State := onCur (fun k => Task.advance { k with res := some v }) s

/-- The issuing task waits for a transfer (43_transfer_api R120). -/
def wait (dir : Dir) (e : Ep) (tmo : Word) (s : State) : State :=
  onCur (fun k => { k with phase := .waiting dir e s.now tmo }) s

/-! ## The control of a step -/

/-- How a part of a step ends: it goes on, a fault of the spec's ends the step (00_scope R14), or the machine stops. -/
inductive Ctl where
  | go (s : State)
  | ended (s : State)
  | stop (f : Fault)
  deriving DecidableEq, Repr

/-- Run the next part of a step, unless the step has ended. -/
def Ctl.bind (c : Ctl) (f : State → Ctl) : Ctl :=
  match c with
  | .go s => f s
  | .ended s => .ended s
  | .stop r => .stop r

/-- The outcome of a step that ran to this end. -/
def Ctl.outcome : Ctl → Host.Outcome State Fault Refusal
  | .go s => .next s
  | .ended s => .next s
  | .stop r => .fault r

/-- Run a part of a step only where a condition holds. -/
def runIf (c : Bool) (f : State → Ctl) (s : State) : Ctl := if c then f s else .go s

/-- Run a part of a step for endpoint after endpoint. -/
def forEps : List Ep → (Ep → State → Ctl) → State → Ctl
  | [], _, s => .go s
  | e :: es, f, s => (f e s).bind (forEps es f)

end Sys2Proof.Machine
end

