-- ==== Sys2Proof/Machine/BusAgent.lean ====
section
/-! DEFINITION. The bus agent and the clock (45_bus_agent): when each move is enabled and what it does. -/

namespace Sys2Proof.Machine

/-- The host sees the device only while the pull-up is on and the clocks run (45_bus_agent R136). -/
def busUp (s : State) : Bool := s.inited && !s.core.sdis && !s.core.clkgate

/-- An OUT packet of `len` bytes ends the transfer: the last packet, or a short one (45_bus_agent R142). -/
def outEnds (s : State) (e : Ep) (len : Nat) : Bool :=
  decide ((s.oep.get e).pktcnt.toNat ≤ 1) || decide (len < mpsOut s e)

/-- `bus.out` is enabled (45_bus_agent R142). Where RXFD is 1 + ceil_div(mps, 4), a full-size packet that does not end
the transfer fits an empty `rxq` by R142 and by the first sentence of 70_reset_and_hazards R172, though R172's second
sentence says that none ever fits: the model follows R142 (DEDUCED, log 30). -/
def outEnabled (s : State) (e : Ep) (len : Nat) : Bool :=
  (s.oep.get e).usbaep && (s.oep.get e).epena && !(s.oep.get e).nak && !(s.oep.get e).stall
    && decide (0 < (s.oep.get e).pktcnt.toNat) && decide (len ≤ mpsOut s e)
    && decide (s.rxq.length + 1 + wordsFor len + (if outEnds s e len then 1 else 0) ≤ s.core.rxfd.toNat)

/-- `bus.setup` is enabled, whatever NAK, EPENA and STALL are (45_bus_agent R143). -/
def setupEnabled (s : State) (e : Ep) (len : Nat) : Bool :=
  (s.oep.get e).usbaep && decide ((s.oep.get e).eptyp = .control) && decide (len = 8)
    && decide (s.rxq.length + 3 ≤ s.core.rxfd.toNat)

/-- `bus.setupdone` is enabled (45_bus_agent R144). -/
def setupdoneEnabled (s : State) (e : Ep) : Bool :=
  s.setupPending.get e && decide (s.rxq.length + 1 ≤ s.core.rxfd.toNat)

/-- The bytes of the packet that `bus.in` takes (45_bus_agent R145). -/
def inPacketBytes (s : State) (e : Ep) : Nat := min (mpsIn s e) (s.iep.get e).xfrsiz.toNat

/-- `bus.in` is enabled (45_bus_agent R145). -/
def takeEnabled (s : State) (e : Ep) : Bool :=
  (s.iep.get e).usbaep && (s.iep.get e).epena && !(s.iep.get e).nak && !(s.iep.get e).stall && !s.core.ginnak
    && decide (0 < (s.iep.get e).pktcnt.toNat) && decide (wordsFor (inPacketBytes s e) ≤ (s.txq.get e).length)

/-- Whether a move of the bus agent is enabled (45_bus_agent R136 to R145). -/
def busEnabled (s : State) (m : BusMove) : Bool :=
  busUp s &&
    match m with
    | .reset | .enumdone | .iso _ | .wake => true
    | .out e data _ _ => outEnabled s e data.length
    | .setup e data _ => setupEnabled s e data.length
    | .setupdone e => setupdoneEnabled s e
    | .take e => takeEnabled s e

/-- The OUT bank after an OUT packet of `len` bytes (45_bus_agent R142). -/
def outBankAfter (b : OutBank) (len : Nat) (ends : Bool) : OutBank :=
  { b with
    pktcnt := b.pktcnt - 1
    xfrsiz := b.xfrsiz - BitVec.ofNat 19 (min len b.xfrsiz.toNat)
    epena := b.epena && !ends
    nak := b.nak || ends }

/-- The effect of `bus.out` (45_bus_agent R142). -/
def busOut (e : Ep) (data : List Byte) (dpid : BitVec 2) (frm : BitVec 4) (s : State) : State :=
  let epnum := BitVec.ofNat 4 e.val
  let entry := rxStatusWord epnum (BitVec.ofNat 11 data.length) dpid kindOutData frm
    :: packBytes (s.draws.pad.get e) data
  let done := if outEnds s e data.length then [rxStatusWord epnum 0 0 kindOutXferDone frm] else []
  (s.setRxq (s.rxq ++ entry ++ done)).setOep e
    (outBankAfter (s.oep.get e) data.length (outEnds s e data.length))

/-- A SETUP packet on endpoint 0 clears STALL in both of its banks (45_bus_agent R143). -/
def clearStall0 (s : State) : State :=
  (s.setIep 0 { s.iep.get 0 with stall := false }).setOep 0 { s.oep.get 0 with stall := false }

/-- The effect of `bus.setup` (45_bus_agent R143). -/
def busSetup (e : Ep) (data : List Byte) (frm : BitVec 4) (s : State) : State :=
  let entry := rxStatusWord (BitVec.ofNat 4 e.val) 8 0 kindSetupData frm :: packBytes (s.draws.pad.get e) data
  let b := s.oep.get e
  let s1 := (s.setRxq (s.rxq ++ entry)).setOep e
    { b with stupcnt := if b.stupcnt = 0 then b.stupcnt else b.stupcnt - 1 }
  let s2 := if e = 0 then clearStall0 s1 else s1
  { s2 with setupPending := s2.setupPending.set e true }

/-- The effect of `bus.setupdone` (45_bus_agent R144). -/
def busSetupdone (e : Ep) (s : State) : State :=
  let s1 := (s.setRxq (s.rxq ++ [rxStatusWord (BitVec.ofNat 4 e.val) 0 0 kindSetupDone 0])).setOep e
    { s.oep.get e with epena := false, nak := true }
  { s1 with setupPending := s1.setupPending.set e false }

/-- The IN bank after an IN packet of `p` bytes (45_bus_agent R145). -/
def inBankAfter (b : InBank) (p : Nat) : InBank :=
  { b with
    xfrsiz := b.xfrsiz - BitVec.ofNat 19 p
    pktcnt := b.pktcnt - 1
    xfrc := b.xfrc || decide (b.pktcnt = 1)
    epena := b.epena && !decide (b.pktcnt = 1) }

/-- The effect of `bus.in` (45_bus_agent R145). -/
def busTake (e : Ep) (s : State) : State :=
  let p := inPacketBytes s e
  let k := wordsFor p
  let bytes := (unpackWords ((s.txq.get e).take k)).take p
  let s1 := (s.setTxq e ((s.txq.get e).drop k)).setIep e (inBankAfter (s.iep.get e) p)
  { s1 with busTx := s1.busTx ++ [(e, bytes)] }

/-- The effect of a move of the bus agent (45_bus_agent R138 to R145). -/
def busEffect (s : State) : BusMove → State
  | .reset => s.setCore { s.core with usbrst := true }
  | .enumdone => s.setCore { s.core with enumdne := true }
  | .iso .inn => s.setCore { s.core with iisoixfr := true }
  | .iso .out => s.setCore { s.core with ipxfr := true }
  | .wake => s.setCore { s.core with wkupint := true }
  | .out e data dpid frm => busOut e data dpid frm s
  | .setup e data frm => busSetup e data frm s
  | .setupdone e => busSetupdone e s
  | .take e => busTake e s

/-- A turn of the bus agent: a move whose precondition fails is not a step (45_bus_agent R136, R137, log 2). -/
def busTurn (m : BusMove) (s : State) : State := if busEnabled s m then busEffect s m else s

/-- `bus.tick` (45_bus_agent R146). -/
def tick (s : State) : State := { s with now := (s.now + 1) % clockPeriod s.cfg }

/-- The outside reads `task[t].res`: a read of None is a fault (10_state R47, 60_exceptions R151, log 21). -/
def observe (t : Nat) (s : State) : State :=
  match s.tasks[t]? with
  | some k => if k.res.isNone then raise (.unwrittenResult t) s else s
  | none => s

end Sys2Proof.Machine
end

