-- ==== Sys2Proof/Machine/BusControl.lean ====
section
/-! DEFINITION. Bus control: INIT, CONNECT and DISCONNECT (44_bus_control). -/

namespace Sys2Proof.Machine

/-- The controller-global registers after a successful `init` (10_state R50); TRDT is a draw. -/
def CoreRegs.afterInit (trdt : BitVec 4) : CoreRegs where
  physel := true
  fdmod := true
  trdt := trdt
  gint := true
  gintmsk := gintmskBase
  usbrst := false
  enumdne := false
  iisoixfr := false
  ipxfr := false
  wkupint := false
  rxfd := 0
  txsa := .all 0
  txfd := .all 0
  dspd := 3
  dad := 0
  sdis := true
  ginnak := true
  clkgate := false
  diepmskXfrcm := true
  doepmskXfrcm := true
  doepmskStupm := true
  iepm := .all false
  oepm := .all false
  txfem := .all false

/-- The state a successful `init` leaves (10_state R50, 44_bus_control R133). -/
def bringUp (s : State) : State :=
  { s with
    inited := true
    core := CoreRegs.afterInit s.draws.trdt
    iep := .all .zero
    oep := .all .zero
    rxq := []
    txq := .all []
    din := .all .empty
    dout := .all .empty
    busActive := false
    setupPending := .all false }

/-- INIT (44_bus_control R133). -/
def initBlock (s : State) : State :=
  if s.inited then refuse .reInit s
  else if !s.draws.initSpinOk then returnRes codeFatal s
  else advance (bringUp s)

/-- CONNECT (44_bus_control R134). -/
def connectBus (s : State) : State :=
  if !s.inited then refuse .notInited s
  else advance (s.setCore { s.core with
    sdis := false, clkgate := false, gint := s.cfg.connectRestoresGint || s.core.gint })

/-- DISCONNECT (44_bus_control R135). -/
def disconnectBus (s : State) : State :=
  if !s.inited then refuse .notInited s
  else advance { s with
    core := { s.core with sdis := true, clkgate := true, gint := false }
    busActive := false }

/-- INIT. -/
def execInit (s : State) : Host.Outcome State Fault Refusal := .next (initBlock s)

/-- CONNECT. -/
def execConnect (s : State) : Host.Outcome State Fault Refusal := .next (connectBus s)

/-- DISCONNECT. -/
def execDisconnect (s : State) : Host.Outcome State Fault Refusal := .next (disconnectBus s)

end Sys2Proof.Machine
end

