-- ==== Sys2Proof/Machine/FifoMarshaling.lean ====
section
/-! DEFINITION. The FIFO marshaling primitives READ_PACKET, WRITE_PACKET and DUMP_PACKET (40_fifo_marshaling). -/

namespace Sys2Proof.Machine

/-- A pop loop's end: where the receive FIFO held fewer than the `k` words it wanted, the fault ends the step. -/
def popEnd (k had : Nat) (s : State) : Ctl := if had < k then .ended (raise .rxUnderflow s) else .go s

/-- `read_packet(dst, size)` (40_fifo_marshaling R92): pop `ceil_div(size, 4)` words and write their first `size` bytes
from `dst` on. Where the FIFO runs out, the words it held are popped and written, and the fault ends the step (log 10). -/
def readPacket (dst size : Nat) (s : State) : Ctl :=
  if inSpace s.cfg dst size then
    popEnd (wordsFor size) s.rxq.length
      ((s.setMem (s.mem.writeBytes dst ((unpackWords (s.rxq.take (wordsFor size))).take size))).setRxq
        (s.rxq.drop (wordsFor size)))
  else .stop .addressSpace

/-- `dump_packet(size)` (40_fifo_marshaling R94): pop `ceil_div(size, 4)` words. -/
def dumpPacket (size : Nat) (s : State) : Ctl :=
  popEnd (wordsFor size) s.rxq.length (s.setRxq (s.rxq.drop (wordsFor size)))

/-- The number of bytes `write_packet(e, src, size)` moves (40_fifo_marshaling R93). -/
def writeCount (s : State) (e : Ep) (size : Nat) : Nat := min size (txAvailBytes s e)

/-- `write_packet(e, src, size)` (40_fifo_marshaling R93): push the words of the first `writeCount` bytes, and return
that count with the state. -/
def writePacket (e : Ep) (src size : Nat) (s : State) : Except Fault (Nat × State) :=
  let n := writeCount s e size
  if inSpace s.cfg src n then
    .ok (n, s.setTxq e (s.txq.get e ++ packBytes (s.draws.pad.get e) (s.mem.readBytes src n)))
  else .error .addressSpace

/-- READ_PACKET. -/
def execReadPacket (dst : Word) (size : Nat) (s : State) : Host.Outcome State Fault Refusal :=
  (readPacket dst.toNat size s).outcome

/-- WRITE_PACKET; the count it returns goes to the rule that invokes it (40_fifo_marshaling R91). -/
def execWritePacket (e : Ep) (src : Word) (size : Nat) (s : State) : Host.Outcome State Fault Refusal :=
  match writePacket e src.toNat size s with
  | .ok (_, t) => .next t
  | .error f => .fault f

/-- DUMP_PACKET. -/
def execDumpPacket (size : Nat) (s : State) : Host.Outcome State Fault Refusal := (dumpPacket size s).outcome

end Sys2Proof.Machine
end

