-- ==== Sys2Proof/Machine/BusEventHandler.lean ====
section
/-! DEFINITION. The Bus Event Handler: the services, the receive kinds, the endpoint events, and one iteration of the
dispatcher (42_bus_event_handler). -/

namespace Sys2Proof.Machine

/-! ## Reset, EnumerationDone, IsoIncomplete, Wake -/

/-- A descriptor after a bus reset: an Armed one fails (42_bus_event_handler R106). -/
def Descriptor.afterReset (d : Descriptor) : Descriptor :=
  if d.isArmed then { d with status := .failed .reset } else d

/-- The Reset service (42_bus_event_handler R106). -/
def busReset (s : State) : State :=
  { s with
    rxq := []
    txq := .all []
    iep := s.iep.map fun b => { b with epena := false, nak := true, xfrc := false }
    oep := s.oep.map fun b => { b with epena := false, nak := true, xfrc := false, stup := false }
    din := s.din.map Descriptor.afterReset
    dout := s.dout.map Descriptor.afterReset
    setupPending := .all false
    busActive := false
    core := { s.core with txfem := .all false, dad := 0, gintmsk := gintmskBase, usbrst := false }
    events := s.events ++ [.reset] }

/-- The EnumerationDone service (42_bus_event_handler R107). -/
def enumDone (s : State) : State :=
  { s with
    core := { s.core with trdt := s.cfg.trdtFs, ginnak := false, enumdne := false }
    busActive := true }

/-- The IsoIncomplete service for the sampled bits (42_bus_event_handler R112): each sampled flag is cleared, and one
notification is emitted. -/
def isoIncomplete (inBit outBit : Bool) (s : State) : State :=
  (s.setCore { s.core with
    iisoixfr := s.core.iisoixfr && !inBit, ipxfr := s.core.ipxfr && !outBit }).emit .isoIncomplete

/-- The Wake service (42_bus_event_handler R113). -/
def wake (s : State) : State := s.setCore { s.core with wkupint := false }

/-! ## ReceiveFifoLevel (42_bus_event_handler R108, R109) -/

/-- The endpoint an EPNUM names, where there is one (42_bus_event_handler R108). -/
def epOfNum (n : BitVec 4) : Option Ep := if h : n.toNat < 8 then some ⟨n.toNat, h⟩ else none

/-- The bytes of a data entry that its endpoint's descriptor keeps, where it is Armed and has room (42 R108). -/
def keptBytes (d : Descriptor) (bcnt : Nat) : Option Nat :=
  if d.isArmed ∧ d.off.toNat < d.req.toNat then some (min bcnt (d.req.toNat - d.off.toNat)) else none

/-- Advance the offset of OUT descriptor e. -/
def advanceDout (e : Ep) (n : Nat) (s : State) : State :=
  s.setDout e { s.dout.get e with off := (s.dout.get e).off + BitVec.ofNat 32 n }

/-- The data words of an entry for endpoint e, after its status word is popped: keep `n` bytes and dump the rest of the
entry's words, so that exactly `ceil_div(bcnt, 4)` are consumed (42_bus_event_handler R108, 90 C6). -/
def keepData (e : Ep) (bcnt n : Nat) (s : State) : Ctl :=
  (readPacket ((s.dout.get e).buf.toNat + (s.dout.get e).off.toNat) n s).bind fun s =>
    dumpPacket (4 * (wordsFor bcnt - wordsFor n)) (advanceDout e n s)

/-- A data entry, after its status word is popped (42_bus_event_handler R108). -/
def receiveData (epnum : BitVec 4) (bcnt : BitVec 11) (s : State) : Ctl :=
  match epOfNum epnum with
  | none => dumpPacket bcnt.toNat s
  | some e =>
    match keptBytes (s.dout.get e) bcnt.toNat with
    | none => dumpPacket bcnt.toNat s
    | some n => keepData e bcnt.toNat n s

/-- Popping OUT_XFER_DONE sets XFRC (42_bus_event_handler R109, 20_memory R60). -/
def popXferDone (epnum : BitVec 4) (s : State) : State :=
  match epOfNum epnum with
  | some e => s.setOep e { s.oep.get e with xfrc := true }
  | none => s

/-- Popping SETUP_DONE sets STUP (42_bus_event_handler R109, 20_memory R60). -/
def popSetupDone (epnum : BitVec 4) (s : State) : State :=
  match epOfNum epnum with
  | some e => s.setOep e { s.oep.get e with stup := true }
  | none => s

/-- An OUT_XFER_DONE entry, after its status word is popped. -/
def receiveXferDone (epnum : BitVec 4) (bcnt : BitVec 11) (s : State) : Ctl :=
  dumpPacket bcnt.toNat (popXferDone epnum s)

/-- A SETUP_DONE entry, after its status word is popped. -/
def receiveSetupDone (epnum : BitVec 4) (bcnt : BitVec 11) (s : State) : Ctl :=
  dumpPacket bcnt.toNat (popSetupDone epnum s)

/-- GLOBAL_OUT_NAK and the reserved kinds: no effect beyond the pop and the dump (42_bus_event_handler R109). -/
def receiveOther (bcnt : BitVec 11) (s : State) : Ctl := dumpPacket bcnt.toNat s

/-- The entry of a popped status word, by its kind (42_bus_event_handler R108, R109). -/
def receiveEntry (w : Word) (s : State) : Ctl :=
  if rxPktsts w = kindOutData ∨ rxPktsts w = kindSetupData then receiveData (rxEpnum w) (rxBcnt w) s
  else if rxPktsts w = kindOutXferDone then receiveXferDone (rxEpnum w) (rxBcnt w) s
  else if rxPktsts w = kindSetupDone then receiveSetupDone (rxEpnum w) (rxBcnt w) s
  else receiveOther (rxBcnt w) s

/-- The ReceiveFifoLevel service: one status entry (42_bus_event_handler R108). -/
def receiveService (s : State) : Ctl :=
  match s.rxq with
  | [] => .go s
  | w :: q => receiveEntry w (s.setRxq q)

/-! ## InEndpoint (42_bus_event_handler R110) -/

/-- A descriptor that completes with its offset, if it is Armed (42_bus_event_handler R105). -/
def Descriptor.completed (d : Descriptor) : Descriptor :=
  if d.isArmed then { d with status := .complete d.off } else d

/-- "transfer complete" of a flagged IN endpoint. -/
def inXfrcEvent (e : Ep) (s : State) : State :=
  if inXfrcFlag s e then
    (s.setIep e { s.iep.get e with xfrc := false }).setDin e (s.din.get e).completed
  else s

/-- Mask the FIFO-empty interrupt of IN endpoint e. -/
def maskTxfe (e : Ep) (s : State) : State := s.setCore { s.core with txfem := s.core.txfem.set e false }

/-- Advance the offset of IN descriptor e, and mask FIFO-empty once it reaches the requested size. -/
def advanceDin (e : Ep) (n : Nat) (s : State) : State :=
  let d := { s.din.get e with off := (s.din.get e).off + BitVec.ofNat 32 n }
  if d.off = d.req then maskTxfe e (s.setDin e d) else s.setDin e d

/-- "FIFO empty" of a flagged IN endpoint. -/
def inTxfeEvent (e : Ep) (s : State) : Ctl :=
  if inTxfeFlag s e then
    if (s.din.get e).isArmed then
      match writePacket e ((s.din.get e).buf.toNat + (s.din.get e).off.toNat)
          ((s.din.get e).req.toNat - (s.din.get e).off.toNat) s with
      | .ok (n, t) => .go (advanceDin e n t)
      | .error f => .stop f
    else .go (maskTxfe e s)
  else .go s

/-- The service of one IN endpoint: "transfer complete" first, then "FIFO empty" (42_bus_event_handler R110). -/
def inEndpoint (e : Ep) (s : State) : Ctl :=
  if inPending s e then inTxfeEvent e (inXfrcEvent e s) else .go s

/-- The InEndpoint service. -/
def inService (s : State) : Ctl := forEps allEps inEndpoint s

/-! ## OutEndpoint (42_bus_event_handler R111) -/

/-- The event of a flagged OUT endpoint: both bits are cleared, but for those that a later iteration services, and an
Armed descriptor completes. -/
def outEvent (e : Ep) (laterXfrc laterStup : Bool) (s : State) : State :=
  (s.setOep e { s.oep.get e with xfrc := laterXfrc, stup := laterStup }).setDout e (s.dout.get e).completed

/-- OUT endpoint e is flagged by an event that it had in bank `old` too. -/
def outPendingSince (old : OutBank) (s : State) (e : Ep) : Bool :=
  s.core.oepm.get e && ((old.xfrc && outXfrcFlag s e) || (old.stup && outStupFlag s e))

/-- The service of one OUT endpoint whose bank was `old` when the status was sampled. An event raised since then is not
serviced and stays (42_bus_event_handler R109, 60_exceptions R157). -/
def outEndpoint (old : OutBank) (e : Ep) (s : State) : Ctl :=
  .go (if outPendingSince old s e then
    outEvent e ((s.oep.get e).xfrc && !old.xfrc) ((s.oep.get e).stup && !old.stup) s else s)

/-- The OutEndpoint service, for the OUT banks `old` of the state in which the status was sampled. -/
def outService (old : PerEp OutBank) (s : State) : Ctl := forEps allEps (fun e => outEndpoint (old.get e) e) s

/-! ## The iteration (42_bus_event_handler R103) -/

/-- The services that the word `s0` selects, sampled in state `sampled`, in the order of 42_bus_event_handler R104. Each
one reads the state as the earlier ones left it (R103), but an XFRC or STUP that this iteration's own pop raises waits for
a later iteration, also where OEPINT was sampled for another cause (R109, 60_exceptions R157): that R103 and R111 do not
service it at once is DEDUCED (log 29). -/
def services (s0 : Word) (sampled : State) : Ctl :=
  (runIf (s0.getLsbD usbrstBit) (fun s => .go (busReset s)) sampled).bind fun s =>
  (runIf (s0.getLsbD enumdneBit) (fun s => .go (enumDone s)) s).bind fun s =>
  (runIf (s0.getLsbD rxflvlBit) receiveService s).bind fun s =>
  (runIf (s0.getLsbD iepintBit) inService s).bind fun s =>
  (runIf (s0.getLsbD oepintBit) (outService sampled.oep) s).bind fun s =>
  (runIf (s0.getLsbD iisoixfrBit || s0.getLsbD ipxfrBit)
    (fun s => .go (isoIncomplete (s0.getLsbD iisoixfrBit) (s0.getLsbD ipxfrBit) s)) s).bind fun s =>
  runIf (s0.getLsbD wkupintBit) (fun s => .go (wake s)) s

/-- `DISPATCH()`: one iteration, the masked status sampled once (42_bus_event_handler R103). -/
def dispatch (s : State) : Ctl := if masked s = 0 then .go s else services (masked s) s

/-! ## The rows of the opcode table -/

/-- SVC_USBRST. -/
def execSvcUsbrst (s : State) : Host.Outcome State Fault Refusal := .next (busReset s)

/-- SVC_ENUMDNE. -/
def execSvcEnumdne (s : State) : Host.Outcome State Fault Refusal := .next (enumDone s)

/-- SVC_RXFLVL. -/
def execSvcRxflvl (s : State) : Host.Outcome State Fault Refusal := (receiveService s).outcome

/-- SVC_IEPINT. -/
def execSvcIepint (s : State) : Host.Outcome State Fault Refusal := (inService s).outcome

/-- SVC_OEPINT, the status sampled in the state as it stands. -/
def execSvcOepint (s : State) : Host.Outcome State Fault Refusal := (outService s.oep s).outcome

/-- SVC_IISOIXFR, alone in its iteration (log 20). -/
def execSvcIisoixfr (s : State) : Host.Outcome State Fault Refusal := .next (isoIncomplete true false s)

/-- SVC_IPXFR, alone in its iteration (log 20). -/
def execSvcIpxfr (s : State) : Host.Outcome State Fault Refusal := .next (isoIncomplete false true s)

/-- SVC_WKUPINT. -/
def execSvcWkupint (s : State) : Host.Outcome State Fault Refusal := .next (wake s)

/-- RX_GLOBAL_OUT_NAK; EPNUM, DPID and FRMNUM are not read (30_encoding R85). -/
def execRxGlobalOutNak (_epnum : BitVec 4) (bcnt : BitVec 11) (_dpid : BitVec 2) (_frmnum : BitVec 4) (s : State) :
    Host.Outcome State Fault Refusal := (receiveOther bcnt s).outcome

/-- RX_OUT_DATA; DPID and FRMNUM are not read (30_encoding R85). -/
def execRxOutData (epnum : BitVec 4) (bcnt : BitVec 11) (_dpid : BitVec 2) (_frmnum : BitVec 4) (s : State) :
    Host.Outcome State Fault Refusal := (receiveData epnum bcnt s).outcome

/-- RX_OUT_XFER_DONE; DPID and FRMNUM are not read (30_encoding R85). -/
def execRxOutXferDone (epnum : BitVec 4) (bcnt : BitVec 11) (_dpid : BitVec 2) (_frmnum : BitVec 4) (s : State) :
    Host.Outcome State Fault Refusal := (receiveXferDone epnum bcnt s).outcome

/-- RX_SETUP_DONE; DPID and FRMNUM are not read (30_encoding R85). -/
def execRxSetupDone (epnum : BitVec 4) (bcnt : BitVec 11) (_dpid : BitVec 2) (_frmnum : BitVec 4) (s : State) :
    Host.Outcome State Fault Refusal := (receiveSetupDone epnum bcnt s).outcome

/-- RX_SETUP_DATA: SETUP data fill the same descriptor as OUT data (42_bus_event_handler R108, D33). -/
def execRxSetupData (epnum : BitVec 4) (bcnt : BitVec 11) (_dpid : BitVec 2) (_frmnum : BitVec 4) (s : State) :
    Host.Outcome State Fault Refusal := (receiveData epnum bcnt s).outcome

/-- IEP_XFRC: no effect on an endpoint whose event class is off (42_bus_event_handler R110, log 20). -/
def execIepXfrc (e : Ep) (s : State) : Host.Outcome State Fault Refusal :=
  .next (if s.core.iepm.get e then inXfrcEvent e s else s)

/-- IEP_TXFE: no effect on an endpoint whose event class is off (42_bus_event_handler R110, log 20). -/
def execIepTxfe (e : Ep) (s : State) : Host.Outcome State Fault Refusal :=
  (runIf (s.core.iepm.get e) (inTxfeEvent e) s).outcome

/-- OEP_XFRC: no effect on an endpoint that it does not flag (42_bus_event_handler R111, log 20). -/
def execOepXfrc (e : Ep) (s : State) : Host.Outcome State Fault Refusal :=
  .next (if s.core.oepm.get e && outXfrcFlag s e then outEvent e false false s else s)

/-- OEP_STUP: no effect on an endpoint that it does not flag (42_bus_event_handler R111, log 20). -/
def execOepStup (e : Ep) (s : State) : Host.Outcome State Fault Refusal :=
  .next (if s.core.oepm.get e && outStupFlag s e then outEvent e false false s else s)

end Sys2Proof.Machine
end

