-- ==== Sys2Proof/Machine/EndpointConfig.lean ====
section
/-! DEFINITION. Endpoint configuration and FIFO allocation: CONFIGURE_IN_EP, CONFIGURE_OUT_EP, SET_RX_FIFO_SIZE and
SET_TX_FIFO_SIZE (41_endpoint_config), and the Endpoint Configuration Record they map (R98, 10_state R39). -/

namespace Sys2Proof.Machine

/-- CONFIGURE_IN_EP's writes (41_endpoint_config R96). -/
def mapInEp (e : Ep) (ty : EpType) (mpsiz : BitVec 11) (s : State) : State :=
  (s.setIep e { s.iep.get e with mpsiz := mpsiz, eptyp := ty, txfnum := BitVec.ofNat 4 e.val, usbaep := true }).setCore
    { s.core with iepm := s.core.iepm.set e true }

/-- CONFIGURE_IN_EP (41_endpoint_config R96). -/
def configureInEp (e : Ep) (ty : EpType) (mps : BitVec 11) (s : State) : State :=
  if !s.inited then refuse .notInited s
  else if (s.din.get e).isArmed then refuse .reconfigureInFlight s
  else
    match mpsizFor s.cfg e ty mps with
    | .error r => refuse r s
    | .ok v => advance (mapInEp e ty v s)

/-- CONFIGURE_OUT_EP's writes (41_endpoint_config R97). -/
def mapOutEp (e : Ep) (ty : EpType) (mpsiz : BitVec 11) (s : State) : State :=
  (s.setOep e { s.oep.get e with mpsiz := mpsiz, eptyp := ty, usbaep := true }).setCore
    { s.core with oepm := s.core.oepm.set e true }

/-- CONFIGURE_OUT_EP (41_endpoint_config R97). -/
def configureOutEp (e : Ep) (ty : EpType) (mps : BitVec 11) (s : State) : State :=
  if !s.inited then refuse .notInited s
  else if (s.dout.get e).isArmed then refuse .reconfigureInFlight s
  else
    match mpsizFor s.cfg e ty mps with
    | .error r => refuse r s
    | .ok v => advance (mapOutEp e ty v s)

/-- SET_RX_FIFO_SIZE (41_endpoint_config R99). -/
def setRxFifoSize (words : BitVec 16) (s : State) : State :=
  if !s.inited then refuse .notInited s
  else if !s.rxq.isEmpty || allEps.any (fun k => (s.dout.get k).isArmed) then refuse .resizeBusy s
  else
    let w := fifoDepth s.cfg words
    if allocOk s.cfg.fifoRamWords.toNat w (depthsOf s.core.txsa) (depthsOf s.core.txfd) then
      advance (s.setCore { s.core with rxfd := BitVec.ofNat 16 w })
    else refuse .fifoAlloc s

/-- SET_TX_FIFO_SIZE (41_endpoint_config R100). -/
def setTxFifoSize (e : Ep) (words : BitVec 16) (s : State) : State :=
  if !s.inited then refuse .notInited s
  else if !(s.txq.get e).isEmpty || (s.din.get e).isArmed then refuse .resizeBusy s
  else
    let w := fifoDepth s.cfg words
    let sa := txStart s e
    if allocOk s.cfg.fifoRamWords.toNat s.core.rxfd.toNat ((depthsOf s.core.txsa).set e sa)
        ((depthsOf s.core.txfd).set e w) then
      advance (s.setCore { s.core with
        txsa := s.core.txsa.set e (BitVec.ofNat 16 sa), txfd := s.core.txfd.set e (BitVec.ofNat 16 w) })
    else refuse .fifoAlloc s

/-- CONFIGURE_IN_EP. -/
def execConfigureInEp (e : Ep) (ty : EpType) (mps : BitVec 11) (s : State) : Host.Outcome State Fault Refusal :=
  .next (configureInEp e ty mps s)

/-- CONFIGURE_OUT_EP. -/
def execConfigureOutEp (e : Ep) (ty : EpType) (mps : BitVec 11) (s : State) : Host.Outcome State Fault Refusal :=
  .next (configureOutEp e ty mps s)

/-- SET_RX_FIFO_SIZE. -/
def execSetRxFifoSize (words : BitVec 16) (s : State) : Host.Outcome State Fault Refusal :=
  .next (setRxFifoSize words s)

/-- SET_TX_FIFO_SIZE. -/
def execSetTxFifoSize (e : Ep) (words : BitVec 16) (s : State) : Host.Outcome State Fault Refusal :=
  .next (setTxFifoSize e words s)

/-! ## The Endpoint Configuration Record (10_state R39, 41_endpoint_config R98) -/

/-- The Endpoint Configuration Record, a view over the banks; the FIFO range is in bytes, IN only (10_state R26, 90 C5). -/
structure EpRecord where
  number : Ep
  dir : Dir
  active : Bool
  ty : EpType
  mps : Nat
  fifoBytes : Option (Nat × Nat)
  deriving DecidableEq, Repr

/-- The record of IN endpoint e. -/
def inRecord (s : State) (e : Ep) : EpRecord where
  number := e
  dir := .inn
  active := (s.iep.get e).usbaep
  ty := (s.iep.get e).eptyp
  mps := mpsIn s e
  fifoBytes := some (4 * (s.core.txsa.get e).toNat, 4 * (s.core.txfd.get e).toNat)

/-- The record of OUT endpoint e. -/
def outRecord (s : State) (e : Ep) : EpRecord where
  number := e
  dir := .out
  active := (s.oep.get e).usbaep
  ty := (s.oep.get e).eptyp
  mps := mpsOut s e
  fifoBytes := none

end Sys2Proof.Machine
end

