-- ==== Sys2Proof/Machine/TransferApi.lean ====
section
/-! DEFINITION. The Synchronous Transfer API (IN_TRANSFER, OUT_TRANSFER, SETUP_TRANSFER and the poll step) and the direct
operations (SET_DEVICE_ADDRESS, STALL_*, DISABLE_*) (43_transfer_api). -/

namespace Sys2Proof.Machine

/-! ## The checks of an arm step (43_transfer_api R117) -/

/-- What the checks of an arm step decide. -/
inductive ArmVerdict where
  | refused (r : RefuseReason)
  | error (code : Word)
  | faulted (f : FaultReason)
  | pass
  deriving DecidableEq, Repr

/-- The seven checks in their order; the first that applies decides (43_transfer_api R117). -/
def armVerdict (inited configured controlOnly armed : Bool) (limit : Option RefuseReason) (space buf size : Nat)
    (race : Option Nat) : ArmVerdict :=
  if !inited then .refused .notInited
  else if !configured then .error codeFatal
  else if !controlOnly then .refused .notControl
  else if armed then .error codeBusy
  else
    match limit with
    | some r => .refused r
    | none =>
      if buf + size > space then .refused .bufWrap
      else
        match race with
        | some a => .faulted (.bufferRace (BitVec.ofNat 32 a))
        | none => .pass

/-- The checks of IN_TRANSFER (43_transfer_api R117, R120). -/
def inVerdict (e : Ep) (size : Nat) (buf : Word) (s : State) : ArmVerdict :=
  armVerdict s.inited (s.iep.get e).usbaep true (s.din.get e).isArmed (inLimit s e size) (memBytes s.cfg) buf.toNat size
    (raceAddr s .inn buf.toNat size)

/-- The checks of OUT_TRANSFER (43_transfer_api R117, R121). -/
def outVerdict (e : Ep) (size : Nat) (buf : Word) (s : State) : ArmVerdict :=
  armVerdict s.inited (s.oep.get e).usbaep true (s.dout.get e).isArmed none (memBytes s.cfg) buf.toNat size
    (raceAddr s .out buf.toNat size)

/-- The checks of SETUP_TRANSFER (43_transfer_api R117, R122). -/
def setupVerdict (e : Ep) (size : Nat) (buf : Word) (s : State) : ArmVerdict :=
  armVerdict s.inited (s.oep.get e).usbaep (decide ((s.oep.get e).eptyp = .control)) (s.dout.get e).isArmed none
    (memBytes s.cfg) buf.toNat size (raceAddr s .out buf.toNat size)

/-- An arm step: the checks' outcome, or the arm. -/
def armStep (v : ArmVerdict) (arm : State → Ctl) (s : State) : Ctl :=
  match v with
  | .refused r => .go (refuse r s)
  | .error code => .go (returnRes code s)
  | .faulted f => .ended (raise f s)
  | .pass => arm s

/-! ## The arms (43_transfer_api R120 to R122) -/

/-- The descriptor an arm writes. -/
def armedDescriptor (buf : Word) (size : BitVec 19) : Descriptor := ⟨.armed, buf, size.setWidth 32, 0⟩

/-- The IN bank an arm programs: sizes, MCNT for an isochronous endpoint, NAK and EPENA (43_transfer_api R120). -/
def armInBank (b : InBank) (size : BitVec 19) (pc : Nat) : InBank :=
  { b with
    xfrsiz := size
    pktcnt := BitVec.ofNat 10 pc
    mcnt := if b.eptyp = .isochronous then 1 else b.mcnt
    nak := false
    epena := true }

/-- The arm of IN_TRANSFER (43_transfer_api R120). -/
def armIn (e : Ep) (size : BitVec 19) (buf tmo : Word) (s : State) : Ctl :=
  let pc := packetCount size.toNat (mpsIn s e)
  let s1 := (s.setDin e (armedDescriptor buf size)).setIep e (armInBank (s.iep.get e) size pc)
  if (s.iep.get e).eptyp = .isochronous then
    match writePacket e buf.toNat size.toNat s1 with
    | .ok (n, s2) => .go (wait .inn e tmo (s2.setDin e { armedDescriptor buf size with off := BitVec.ofNat 32 n }))
    | .error f => .stop f
  else .go (wait .inn e tmo (s1.setCore { s1.core with txfem := s1.core.txfem.set e true }))

/-- The arm of OUT_TRANSFER (43_transfer_api R121). -/
def armOut (e : Ep) (size : BitVec 19) (buf tmo : Word) (s : State) : State :=
  let pc := outPktcnt s e size.toNat
  let b := { s.oep.get e with
    pktcnt := BitVec.ofNat 10 pc, xfrsiz := BitVec.ofNat 19 (outXfrsiz s e pc), nak := false, epena := true }
  wait .out e tmo ((s.setDout e (armedDescriptor buf size)).setOep e b)

/-- The arm of SETUP_TRANSFER (43_transfer_api R122). -/
def armSetup (e : Ep) (size : BitVec 19) (buf tmo : Word) (s : State) : State :=
  let sc := setupStupcnt s e size.toNat
  let b := { s.oep.get e with
    stupcnt := BitVec.ofNat 2 sc, xfrsiz := BitVec.ofNat 19 (outXfrsiz s e sc), nak := false, epena := true }
  wait .out e tmo ((s.setDout e (armedDescriptor buf size)).setOep e b)

/-- IN_TRANSFER. -/
def execInTransfer (e : Ep) (size : BitVec 19) (buf tmo : Word) (s : State) : Host.Outcome State Fault Refusal :=
  (armStep (inVerdict e size.toNat buf s) (armIn e size buf tmo) s).outcome

/-- OUT_TRANSFER. -/
def execOutTransfer (e : Ep) (size : BitVec 19) (buf tmo : Word) (s : State) : Host.Outcome State Fault Refusal :=
  (armStep (outVerdict e size.toNat buf s) (fun s => .go (armOut e size buf tmo s)) s).outcome

/-- SETUP_TRANSFER. -/
def execSetupTransfer (e : Ep) (size : BitVec 19) (buf tmo : Word) (s : State) : Host.Outcome State Fault Refusal :=
  (armStep (setupVerdict e size.toNat buf s) (fun s => .go (armSetup e size buf tmo s)) s).outcome

/-! ## The poll step (43_transfer_api R123, R124) -/

/-- The descriptor of an endpoint and direction. -/
def descriptor (s : State) (dir : Dir) (e : Ep) : Descriptor :=
  match dir with
  | .inn => s.din.get e
  | .out => s.dout.get e

/-- Write a descriptor. -/
def setDescriptor (s : State) (dir : Dir) (e : Ep) (d : Descriptor) : State :=
  match dir with
  | .inn => s.setDin e d
  | .out => s.setDout e d

/-- EPENA cleared and NAK set on an IN endpoint. -/
def disableIn (e : Ep) (s : State) : State := s.setIep e { s.iep.get e with epena := false, nak := true }

/-- EPENA cleared and NAK set on an OUT endpoint. -/
def disableOut (e : Ep) (s : State) : State := s.setOep e { s.oep.get e with epena := false, nak := true }

/-- `timeout_recover(dir, e)` (43_transfer_api R124). -/
def timeoutRecover (dir : Dir) (e : Ep) (s : State) : State :=
  match dir with
  | .inn => (disableIn e s).setTxq e []
  | .out => disableOut e s

/-- The end of a wait: the descriptor back to Idle, the result written, the task on to its next command. -/
def endWait (dir : Dir) (e : Ep) (v : Word) (s : State) : State :=
  returnRes v (setDescriptor s dir e { descriptor s dir e with status := .idle })

/-- `POLL` of the current task, waiting since `t0` with budget `tmo` (43_transfer_api R123). R123 says that a poll cannot
see Idle, which with several tasks it can; it then yields inside the budget and times out past it, as on Armed, so that
every waiting caller ends (45_bus_agent R147, 92 D9; DEDUCED, log 18). -/
def poll (dir : Dir) (e : Ep) (t0 : Nat) (tmo : Word) (s : State) : State :=
  match (descriptor s dir e).status with
  | .complete n => endWait dir e n s
  | .failed .reset => endWait dir e codeReset s
  | .armed | .idle =>
    if tmo.toNat < elapsed s.cfg s.now t0 then endWait dir e codeTimeout (timeoutRecover dir e s) else s

/-! ## Direct operations (43_transfer_api R128 to R132) -/

/-- A direct operation: refused before `init`, else one step with no descriptor touched. -/
def directOp (f : State → State) (s : State) : State := if !s.inited then refuse .notInited s else advance (f s)

/-- SET_DEVICE_ADDRESS (43_transfer_api R128). -/
def execSetDeviceAddress (addr : BitVec 7) (s : State) : Host.Outcome State Fault Refusal :=
  .next (directOp (fun s => (s.setCore { s.core with dad := addr }).emit (.addressAssigned addr)) s)

/-- STALL_IN_EP (43_transfer_api R129). -/
def execStallInEp (e : Ep) (s : State) : Host.Outcome State Fault Refusal :=
  .next (directOp (fun s => s.setIep e { s.iep.get e with stall := true }) s)

/-- STALL_OUT_EP (43_transfer_api R130). -/
def execStallOutEp (e : Ep) (s : State) : Host.Outcome State Fault Refusal :=
  .next (directOp (fun s => s.setOep e { s.oep.get e with stall := true }) s)

/-- DISABLE_IN_EP (43_transfer_api R131). -/
def execDisableInEp (e : Ep) (s : State) : Host.Outcome State Fault Refusal := .next (directOp (disableIn e) s)

/-- DISABLE_OUT_EP (43_transfer_api R132). -/
def execDisableOutEp (e : Ep) (s : State) : Host.Outcome State Fault Refusal := .next (directOp (disableOut e) s)

end Sys2Proof.Machine
end

