-- ==== Sys2Proof/Machine/Dispatch.lean ====
section
/-! DEFINITION. The one dispatch from instructions to meanings. -/

namespace Sys2Proof.Machine

/-- The meaning of an instruction. A command runs for the task `s.cur`. -/
def exec (i : Instr) (s : State) : Host.Outcome State Fault Refusal :=
  match i with
  | .init => Sys2Proof.Machine.execInit s
  | .connect => Sys2Proof.Machine.execConnect s
  | .disconnect => Sys2Proof.Machine.execDisconnect s
  | .setRxFifoSize words => Sys2Proof.Machine.execSetRxFifoSize words s
  | .setTxFifoSize e words => Sys2Proof.Machine.execSetTxFifoSize e words s
  | .configureInEp e ty mps => Sys2Proof.Machine.execConfigureInEp e ty mps s
  | .configureOutEp e ty mps => Sys2Proof.Machine.execConfigureOutEp e ty mps s
  | .inTransfer e size buf tmo => Sys2Proof.Machine.execInTransfer e size buf tmo s
  | .outTransfer e size buf tmo => Sys2Proof.Machine.execOutTransfer e size buf tmo s
  | .setupTransfer e size buf tmo => Sys2Proof.Machine.execSetupTransfer e size buf tmo s
  | .setDeviceAddress addr => Sys2Proof.Machine.execSetDeviceAddress addr s
  | .stallInEp e => Sys2Proof.Machine.execStallInEp e s
  | .stallOutEp e => Sys2Proof.Machine.execStallOutEp e s
  | .disableInEp e => Sys2Proof.Machine.execDisableInEp e s
  | .disableOutEp e => Sys2Proof.Machine.execDisableOutEp e s
  | .readPacket dst size => Sys2Proof.Machine.execReadPacket dst size s
  | .writePacket e src size => Sys2Proof.Machine.execWritePacket e src size s
  | .dumpPacket size => Sys2Proof.Machine.execDumpPacket size s
  | .svcUsbrst => Sys2Proof.Machine.execSvcUsbrst s
  | .svcEnumdne => Sys2Proof.Machine.execSvcEnumdne s
  | .svcRxflvl => Sys2Proof.Machine.execSvcRxflvl s
  | .svcIepint => Sys2Proof.Machine.execSvcIepint s
  | .svcOepint => Sys2Proof.Machine.execSvcOepint s
  | .svcIisoixfr => Sys2Proof.Machine.execSvcIisoixfr s
  | .svcIpxfr => Sys2Proof.Machine.execSvcIpxfr s
  | .svcWkupint => Sys2Proof.Machine.execSvcWkupint s
  | .rxGlobalOutNak epnum bcnt dpid frmnum => Sys2Proof.Machine.execRxGlobalOutNak epnum bcnt dpid frmnum s
  | .rxOutData epnum bcnt dpid frmnum => Sys2Proof.Machine.execRxOutData epnum bcnt dpid frmnum s
  | .rxOutXferDone epnum bcnt dpid frmnum => Sys2Proof.Machine.execRxOutXferDone epnum bcnt dpid frmnum s
  | .rxSetupDone epnum bcnt dpid frmnum => Sys2Proof.Machine.execRxSetupDone epnum bcnt dpid frmnum s
  | .rxSetupData epnum bcnt dpid frmnum => Sys2Proof.Machine.execRxSetupData epnum bcnt dpid frmnum s
  | .iepXfrc e => Sys2Proof.Machine.execIepXfrc e s
  | .iepTxfe e => Sys2Proof.Machine.execIepTxfe e s
  | .oepXfrc e => Sys2Proof.Machine.execOepXfrc e s
  | .oepStup e => Sys2Proof.Machine.execOepStup e s

end Sys2Proof.Machine
end

