-- ==== Sys2Proof/Machine/Scheduler.lean ====
section
/-! DEFINITION. The turns of the agents (00_scope R9, 45_bus_agent R147): which move comes next, and what a move does. -/

namespace Sys2Proof

/-- A turn that nothing constrains: at each point any agent may be next (45_bus_agent R147, log 1). -/
opaque Config.freeTurn : Nat → Machine.Turn

end Sys2Proof

namespace Sys2Proof.Machine

/-- The turn that comes next: the head of the schedule, or a free one. -/
def nextTurn (s : State) : Turn :=
  match s.sched with
  | turn :: _ => turn
  | [] => Config.freeTurn s.turns

/-- The state in which the next turn's move runs: the turn is used up, and its draws are offered to the step. -/
def afterTurn (s : State) : State :=
  match s.sched with
  | turn :: rest => { s with sched := rest, draws := turn.draws }
  | [] => { s with turns := s.turns + 1, draws := (Config.freeTurn s.turns).draws }

/-- The refusal that a rejection of the port's decoder is (30_encoding R76). A command list that ends inside a command
is none of R76's three kinds: the task has no step (log 16). -/
def portRefusal : DecodeRefusal → Option RefuseReason
  | .reservedOp => some .reservedOp
  | .nonZeroField => some .nonZeroField
  | .internalOp => some .internalOp
  | .truncated => none
  | .notPrimitive => none
  | .notOneService => none
  | .reservedKind => none
  | .notOneEvent => none

/-- A word that the port refuses sets `refused` and has no other effect (30_encoding R76). -/
def rejectWord (r : DecodeRefusal) (s : State) : State :=
  match portRefusal r with
  | some reason => refuse reason s
  | none => s

/-- The words of a task's next command (10_state R46). -/
def commandWords (k : Task) : List Word := dropCommands k.pc k.prog

/-- The current task runs its next command, if there is one (10_state R46, 30_encoding R76). -/
def runCommand (k : Task) (s : State) : Host.Outcome State Fault Refusal :=
  match decodeCommand (commandWords k) with
  | .ok i => exec i s
  | .error r => .next (rejectWord r s)

/-- A turn of the current task: a command, a poll, or no step once it is Done (10_state R46, 43_transfer_api R123). -/
def taskTurn (k : Task) (s : State) : Host.Outcome State Fault Refusal :=
  match k.phase with
  | .ready => runCommand k s
  | .waiting dir e t0 tmo => .next (poll dir e t0 tmo s)
  | .done => .next s

/-- A turn of the dispatcher, which has no step before `init` (42_bus_event_handler R102). -/
def dispatchTurn (s : State) : Host.Outcome State Fault Refusal :=
  if s.inited then (dispatch s).outcome else .next s

/-- What a turn's move does. -/
def runMove (m : Move) (s : State) : Host.Outcome State Fault Refusal :=
  match m with
  | .task t =>
    match s.tasks[t]? with
    | some k => taskTurn k { s with cur := t }
    | none => .next s
  | .dispatch => dispatchTurn s
  | .bus m => .next (busTurn m s)
  | .tick => .next (tick s)
  | .observe t => .next (observe t s)

end Sys2Proof.Machine
end

