-- ==== Sys2Proof/Machine/Loader.lean ====
section
/-! DEFINITION. Placing an instruction where the machine takes its next one: a command in task 0's command list, or the
event that makes the dispatcher's next iteration run one of the block's own selections (log 17). -/

namespace Sys2Proof.Machine

/-- The first `n` commands of a list, filled up with INIT words where the list is shorter. -/
def takeCommands : Nat → List Word → List Word
  | 0, _ => []
  | n + 1, [] => commandWord 1 0 0 0 :: takeCommands n []
  | n + 1, w :: rest =>
    (w :: (rest ++ List.replicate 2 0).take (commandLength w - 1)) ++ takeCommands n (rest.drop (commandLength w - 1))

/-- A task whose next command is the given words, and which is ready to run it. -/
def loadCommand (words : List Word) (k : Task) : Task :=
  { k with
    prog := takeCommands k.pc k.prog ++ words ++ dropCommands (k.pc + 1) k.prog
    phase := .ready }

/-- Task 0 with the given words as its next command, a new task where there is none. -/
def loadTask0 (words : List Word) (ts : List Task) : List Task :=
  match ts with
  | k :: rest => loadCommand words k :: rest
  | [] => [loadCommand words (Task.start [])]

/-- The words of one command of a table word. -/
def oneCommand (words : List Word) : List Word :=
  match words with
  | w :: _ => words.take (commandLength w)
  | [] => []

/-- The next turn is task 0's, and its command is the given words. -/
def stageCommand (words : List Word) (s : State) : State :=
  { s with tasks := loadTask0 (oneCommand words) s.tasks, sched := ⟨.task 0, s.draws⟩ :: s.sched }

/-- The next turn is the dispatcher's, and only the given interrupt source reaches it. -/
def stageService (bit : Nat) (s : State) : State :=
  { s with
    inited := true
    core := { s.core with gint := true, gintmsk := BitVec.twoPow 32 bit }
    sched := ⟨.dispatch, s.draws⟩ :: s.sched }

/-- The receive FIFO with one more entry at its head: the status word and `ceil_div(bcnt, 4)` data words of zero. -/
def stageEntry (w : Word) (s : State) : State :=
  stageService rxflvlBit (s.setRxq (w :: (List.replicate (wordsFor (rxBcnt w).toNat) 0 ++ s.rxq)))

/-- The status word alone at the head of the receive FIFO: the words already there are its data. -/
def stageStatus (w : Word) (s : State) : State := stageService rxflvlBit (s.setRxq (w :: s.rxq))

/-- IN endpoint e raises "transfer complete", alone among the IN endpoints. -/
def stageInXfrc (e : Ep) (s : State) : State :=
  stageService iepintBit ((s.setIep e { s.iep.get e with xfrc := true }).setCore
    { s.core with diepmskXfrcm := true, iepm := (PerEp.all false).set e true })

/-- IN endpoint e raises "FIFO empty", alone among the IN endpoints. -/
def stageInTxfe (e : Ep) (s : State) : State :=
  stageService iepintBit (((s.setTxq e []).setIep e { s.iep.get e with xfrc := false }).setCore
    { s.core with txfem := s.core.txfem.set e true, iepm := (PerEp.all false).set e true })

/-- OUT endpoint e raises "transfer complete" or "setup phase done", alone among the OUT endpoints. -/
def stageOut (e : Ep) (xfrc stup : Bool) (s : State) : State :=
  stageService oepintBit ((s.setOep e { s.oep.get e with xfrc := xfrc, stup := stup }).setCore
    { s.core with doepmskXfrcm := true, doepmskStupm := true, oepm := (PerEp.all false).set e true })

/-- The state in which the dispatcher's next iteration runs one of the block's own selections. -/
def stageSelection (i : Instr) (s : State) : State :=
  match i with
  | .readPacket dst size =>
    stageStatus (rxStatusWord 0 (BitVec.ofNat 11 size) 0 kindOutData 0)
      (s.setDout 0 ⟨.armed, dst, BitVec.ofNat 32 (max 1 size), 0⟩)
  | .writePacket e src size => stageInTxfe e (s.setDin e ⟨.armed, src, BitVec.ofNat 32 size, 0⟩)
  | .dumpPacket size => stageStatus (rxStatusWord 0 (BitVec.ofNat 11 size) 0 kindGlobalOutNak 0) s
  | .svcUsbrst => stageService usbrstBit (s.setCore { s.core with usbrst := true })
  | .svcEnumdne => stageService enumdneBit (s.setCore { s.core with enumdne := true })
  | .svcRxflvl => if s.rxq.isEmpty then stageEntry (rxStatusWord 0 0 0 kindGlobalOutNak 0) s else stageService rxflvlBit s
  | .svcIepint => stageInXfrc 0 s
  | .svcOepint => stageOut 0 true false s
  | .svcIisoixfr => stageService iisoixfrBit (s.setCore { s.core with iisoixfr := true })
  | .svcIpxfr => stageService ipxfrBit (s.setCore { s.core with ipxfr := true })
  | .svcWkupint => stageService wkupintBit (s.setCore { s.core with wkupint := true })
  | .rxGlobalOutNak e bcnt dpid frm => stageEntry (rxStatusWord e bcnt dpid kindGlobalOutNak frm) s
  | .rxOutData e bcnt dpid frm => stageEntry (rxStatusWord e bcnt dpid kindOutData frm) s
  | .rxOutXferDone e bcnt dpid frm => stageEntry (rxStatusWord e bcnt dpid kindOutXferDone frm) s
  | .rxSetupDone e bcnt dpid frm => stageEntry (rxStatusWord e bcnt dpid kindSetupDone frm) s
  | .rxSetupData e bcnt dpid frm => stageEntry (rxStatusWord e bcnt dpid kindSetupData frm) s
  | .iepXfrc e => stageInXfrc e s
  | .iepTxfe e => stageInTxfe e s
  | .oepXfrc e => stageOut e true false s
  | .oepStup e => stageOut e false true s
  | .init | .connect | .disconnect | .setRxFifoSize _ | .setTxFifoSize _ _ => s
  | .configureInEp _ _ _ | .configureOutEp _ _ _ => s
  | .inTransfer _ _ _ _ | .outTransfer _ _ _ _ | .setupTransfer _ _ _ _ => s
  | .setDeviceAddress _ | .stallInEp _ | .stallOutEp _ | .disableInEp _ | .disableOutEp _ => s

/-- The table word's instruction where the machine takes its next one: the dispatcher's selection where the word is one
of the block's own, else the words at the command port. -/
def stageWord (nbits w : Nat) (s : State) : State :=
  match decodeTableWord nbits w with
  | some i => if i.space = .port then stageCommand (tableWords nbits w) s else stageSelection i s
  | none => stageCommand (tableWords nbits w) s

end Sys2Proof.Machine
end

