-- ==== Sys2Proof/Machine/Step.lean ====
section
/-! DEFINITION. One step of the machine: the next turn's move, atomically (00_scope R9, 20_memory R64). -/

namespace Sys2Proof.Machine

/-- One step: the turn that comes next runs its move in the state that offers it its draws. -/
def step (s : State) : Host.Outcome State Fault Refusal := runMove (nextTurn s).move (afterTurn s)

/-- The state with the instruction of a table word stored where `step` takes its next instruction (log 17). -/
def State.withFetchWord (s : State) (nbits w : Nat) : State := stageWord nbits w s

end Sys2Proof.Machine
end

