-- ==== Sys2Proof/Machine/Registers.lean ====
section
/-! DEFINITION. The register words of the block: the views of 30_encoding R83, R84, R86, R87 over the fields of the
state, the bits that act when they are written, and the offsets of R88. No command reads or writes a register by its
offset; the block's rules reach the fields themselves (20_memory R51). A bit that no rule of the spec names reads 0 in a
view, and so do the bits that act when they are written (DESIGN CHOICE, log 22). -/

namespace Sys2Proof

/-- What TXFNUM of GRSTCTL reads as: the spec gives the field no value between flushes (log 28). -/
opaque Config.txfnumRead : Machine.State → BitVec 5

/-- Whether AHBIDL of GRSTCTL reads 1: the spec does not say when the bus is idle (log 28). -/
opaque Config.ahbIdle : Machine.State → Bool

end Sys2Proof

namespace Sys2Proof.Machine

/-- The registers of 30_encoding R88. -/
inductive Reg where
  | gahbcfg
  | gusbcfg
  | grstctl
  | gintsts
  | gintmsk
  | grxstsp
  | grxfsiz
  | dieptxf (e : Ep)
  | dcfg
  | dctl
  | diepmsk
  | doepmsk
  | daint
  | daintmsk
  | diepempmsk
  | diepctl (e : Ep)
  | diepint (e : Ep)
  | dieptsiz (e : Ep)
  | dtxfsts (e : Ep)
  | doepctl (e : Ep)
  | doepint (e : Ep)
  | doeptsiz (e : Ep)
  | pcgcctl
  | fifo (e : Ep)
  deriving DecidableEq, Repr

/-- A register's offset from the peripheral base (30_encoding R88). -/
def Reg.offset : Reg → Nat
  | .gahbcfg => 0x008
  | .gusbcfg => 0x00C
  | .grstctl => 0x010
  | .gintsts => 0x014
  | .gintmsk => 0x018
  | .grxstsp => 0x020
  | .grxfsiz => 0x024
  | .dieptxf e => if e = 0 then 0x028 else 0x104 + 4 * (e.val - 1)
  | .dcfg => 0x800
  | .dctl => 0x804
  | .diepmsk => 0x810
  | .doepmsk => 0x814
  | .daint => 0x818
  | .daintmsk => 0x81C
  | .diepempmsk => 0x834
  | .diepctl e => 0x900 + 0x20 * e.val
  | .diepint e => 0x908 + 0x20 * e.val
  | .dieptsiz e => 0x910 + 0x20 * e.val
  | .dtxfsts e => 0x918 + 0x20 * e.val
  | .doepctl e => 0xB00 + 0x20 * e.val
  | .doepint e => 0xB08 + 0x20 * e.val
  | .doeptsiz e => 0xB10 + 0x20 * e.val
  | .pcgcctl => 0xE00
  | .fifo e => 0x1000 + 0x1000 * e.val

/-- Every register, in the order of 30_encoding R88's table. -/
def allRegs : List Reg :=
  [.gahbcfg, .gusbcfg, .grstctl, .gintsts, .gintmsk, .grxstsp, .grxfsiz] ++ allEps.map .dieptxf
    ++ [.dcfg, .dctl, .diepmsk, .doepmsk, .daint, .daintmsk, .diepempmsk] ++ allEps.map .diepctl
    ++ allEps.map .diepint ++ allEps.map .dieptsiz ++ allEps.map .dtxfsts ++ allEps.map .doepctl
    ++ allEps.map .doepint ++ allEps.map .doeptsiz ++ [.pcgcctl] ++ allEps.map .fifo

/-- The register at an offset, where there is one. -/
def regAt (offset : Nat) : Option Reg := allRegs.find? fun r => r.offset == offset

/-- A field at the bits from `lo` up of a register word. -/
def fieldAt {n : Nat} (v : BitVec n) (lo : Nat) : Word := (v.setWidth 32) <<< lo

/-- The flags of the eight endpoints from bit `lo` up. -/
def epFlagsAt (t : PerEp Bool) (lo : Nat) : Word :=
  allEps.foldl (fun acc e => acc ||| flagAt (t.get e) (lo + e.val)) 0

/-- DIEPCTLe (30_encoding R87); for endpoint 0 only bits 1:0 of MPSIZ are used. CNAK, SNAK and EPDIS read 0 (DESIGN
CHOICE, log 22). -/
def diepctl (b : InBank) (e : Ep) : Word :=
  (if e = 0 then fieldAt (b.mpsiz.setWidth 2) 0 else fieldAt b.mpsiz 0) ||| flagAt b.usbaep 15 ||| flagAt b.nak 17
    ||| fieldAt b.eptyp.code 18 ||| flagAt b.stall 21 ||| fieldAt b.txfnum 22 ||| flagAt b.epena 31

/-- DOEPCTLe: the IN layout without TXFNUM (30_encoding R87). CNAK, SNAK and EPDIS read 0 (DESIGN CHOICE, log 22). -/
def doepctl (b : OutBank) (e : Ep) : Word :=
  (if e = 0 then fieldAt (b.mpsiz.setWidth 2) 0 else fieldAt b.mpsiz 0) ||| flagAt b.usbaep 15 ||| flagAt b.nak 17
    ||| fieldAt b.eptyp.code 18 ||| flagAt b.stall 21 ||| flagAt b.epena 31

/-- DIEPTSIZe (30_encoding R87). -/
def dieptsiz (b : InBank) (e : Ep) : Word :=
  if e = 0 then fieldAt (b.xfrsiz.setWidth 7) 0 ||| fieldAt (b.pktcnt.setWidth 2) 19
  else fieldAt b.xfrsiz 0 ||| fieldAt b.pktcnt 19 ||| fieldAt b.mcnt 29

/-- DOEPTSIZe (30_encoding R87). -/
def doeptsiz (b : OutBank) (e : Ep) : Word :=
  if e = 0 then fieldAt (b.xfrsiz.setWidth 7) 0 ||| fieldAt (b.pktcnt.setWidth 1) 19 ||| fieldAt b.stupcnt 29
  else fieldAt b.xfrsiz 0 ||| fieldAt b.pktcnt 19 ||| fieldAt b.stupcnt 29

/-- The event register of IN endpoint e (30_encoding R84). -/
def diepint (s : State) (e : Ep) : Word := flagAt (s.iep.get e).xfrc xfrcBit ||| flagAt (txfe s e) txfeBit

/-- The event register of OUT endpoint e (30_encoding R84). -/
def doepint (s : State) (e : Ep) : Word := flagAt (s.oep.get e).xfrc xfrcBit ||| flagAt (s.oep.get e).stup stupBit

/-- GRSTCTL (30_encoding R86). CSRST, RXFFLSH and TXFFLSH are pulses inside a step, so they read 0 after it
(70_reset_and_hazards R169, log 28); what TXFNUM and AHBIDL read as is free. -/
def grstctl (s : State) : Word := fieldAt (Config.txfnumRead s) 6 ||| flagAt (Config.ahbIdle s) 31

/-- DCTL (30_encoding R86). SGINAK and CGINAK read 0 (DESIGN CHOICE, log 22). -/
def dctl (c : CoreRegs) : Word := flagAt c.sdis 1 ||| flagAt c.ginnak 2

/-- The word of a register (30_encoding R83, R84, R86, R87). GRXSTSP and the FIFO windows are pop and push ports, and the
spec gives DAINT no layout: those three have no view (log 22). -/
def regWord (s : State) (r : Reg) : Option Word :=
  match r with
  | .gahbcfg => some (flagAt s.core.gint 0)
  | .gusbcfg => some (flagAt s.core.physel 6 ||| fieldAt s.core.trdt 10 ||| flagAt s.core.fdmod 30)
  | .grstctl => some (grstctl s)
  | .gintsts => some (gintsts s)
  | .gintmsk => some s.core.gintmsk
  | .grxfsiz => some (fieldAt s.core.rxfd 0)
  | .dieptxf e => some (fieldAt (s.core.txsa.get e) 0 ||| fieldAt (s.core.txfd.get e) 16)
  | .dcfg => some (fieldAt s.core.dspd 0 ||| fieldAt s.core.dad 4)
  | .dctl => some (dctl s.core)
  | .diepmsk => some (flagAt s.core.diepmskXfrcm 0)
  | .doepmsk => some (flagAt s.core.doepmskXfrcm 0 ||| flagAt s.core.doepmskStupm 3)
  | .daintmsk => some (epFlagsAt s.core.iepm 0 ||| epFlagsAt s.core.oepm 16)
  | .diepempmsk => some (epFlagsAt s.core.txfem 0)
  | .diepctl e => some (diepctl (s.iep.get e) e)
  | .diepint e => some (diepint s e)
  | .dieptsiz e => some (dieptsiz (s.iep.get e) e)
  | .dtxfsts e => some (BitVec.ofNat 32 (txAvailWords s e))
  | .doepctl e => some (doepctl (s.oep.get e) e)
  | .doepint e => some (doepint s e)
  | .doeptsiz e => some (doeptsiz (s.oep.get e) e)
  | .pcgcctl => some (flagAt s.core.clkgate 0 ||| flagAt s.core.clkgate 1)
  | .grxstsp | .daint | .fifo _ => none

/-! ## Bits that act when they are written (30_encoding R86, R87) -/

/-- The bits of the control and reset registers that a write acts through. `txfflsh` carries the TXFNUM it is written
with. -/
inductive CommandBit where
  | cnak (dir : Dir) (e : Ep)
  | snak (dir : Dir) (e : Ep)
  | epdis (dir : Dir) (e : Ep)
  | sginak
  | cginak
  | csrst
  | rxfflsh
  | txfflsh (txfnum : BitVec 5)
  deriving DecidableEq, Repr

/-- DIEPCTLe or DOEPCTLe. -/
def ctlReg (dir : Dir) (e : Ep) : Reg :=
  match dir with
  | .inn => .diepctl e
  | .out => .doepctl e

/-- The register a command bit stands in (30_encoding R86, R87). -/
def CommandBit.reg : CommandBit → Reg
  | .cnak dir e | .snak dir e | .epdis dir e => ctlReg dir e
  | .sginak | .cginak => .dctl
  | .csrst | .rxfflsh | .txfflsh _ => .grstctl

/-- A command bit at its place in its register, with TXFNUM beside TXFFLSH (30_encoding R86, R87). -/
def CommandBit.word : CommandBit → Word
  | .cnak _ _ => flagAt true 26
  | .snak _ _ => flagAt true 27
  | .epdis _ _ => flagAt true 30
  | .sginak => flagAt true 7
  | .cginak => flagAt true 8
  | .csrst => flagAt true 0
  | .rxfflsh => flagAt true 4
  | .txfflsh txfnum => flagAt true 5 ||| fieldAt txfnum 6

/-- TXFNUM's value that means all transmit FIFOs (30_encoding R86). -/
def txfnumAll : BitVec 5 := 0x10

/-- NAK of one endpoint, which the control register shows read-only (30_encoding R87). -/
def writeNak (dir : Dir) (e : Ep) (v : Bool) (s : State) : State :=
  match dir with
  | .inn => s.setIep e { s.iep.get e with nak := v }
  | .out => s.setOep e { s.oep.get e with nak := v }

/-- EPENA of one endpoint cleared. -/
def clearEpena (dir : Dir) (e : Ep) (s : State) : State :=
  match dir with
  | .inn => s.setIep e { s.iep.get e with epena := false }
  | .out => s.setOep e { s.oep.get e with epena := false }

/-- The transmit FIFOs that TXFNUM names are flushed; a number that names none flushes none (30_encoding R86). -/
def flushTx (txfnum : BitVec 5) (s : State) : State :=
  if txfnum = txfnumAll then { s with txq := .all [] }
  else if h : txfnum.toNat < 8 then s.setTxq ⟨txfnum.toNat, h⟩ [] else s

/-- What writing a command bit does, where the spec gives it an effect (30_encoding R86, R87): CNAK and SNAK write NAK,
SGINAK and CGINAK write GINNAK, the flush bits empty their FIFOs. R87 names EPDIS without an effect; that it clears EPENA
is PRESUMED (log 28). CSRST has no effect of its own in the spec: INIT pulses it inside its one step (44_bus_control
R133). -/
def CommandBit.act (b : CommandBit) (s : State) : Option State :=
  match b with
  | .cnak dir e => some (writeNak dir e false s)
  | .snak dir e => some (writeNak dir e true s)
  | .epdis dir e => some (clearEpena dir e s)
  | .sginak => some (s.setCore { s.core with ginnak := true })
  | .cginak => some (s.setCore { s.core with ginnak := false })
  | .csrst => none
  | .rxfflsh => some (s.setRxq [])
  | .txfflsh txfnum => some (flushTx txfnum s)

/-- Command bits written one after another. -/
def actAll : List CommandBit → State → Option State
  | [], s => some s
  | b :: bs, s => (b.act s).bind (actAll bs)

end Sys2Proof.Machine
end

