-- ==== Sys2Proof/Safety.lean ====
section
/-! DEFINITION. What counts as a safe run, in the terms that claims use: frames, how a command ends, whole runs of rows of
the opcode table, and the invariants of the spec. -/

namespace Sys2Proof.Machine

/-! ## Frames -/

/-- The parts of the state that a frame names. `refused` stands for the mark and its name, `sched` for the turns still to
be taken and the counter of free turns. -/
inductive Part where
  | cfg
  | inited
  | core
  | iep
  | oep
  | rxq
  | txq
  | din
  | dout
  | busActive
  | events
  | setupPending
  | busTx
  | tasks
  | now
  | mem
  | fault
  | refused
  | cur
  | draws
  | sched
  deriving DecidableEq, Repr

/-- A part is the same in two states. The buffer memory is compared byte by byte. -/
def Same (p : Part) (s t : State) : Prop :=
  match p with
  | .cfg => t.cfg = s.cfg
  | .inited => t.inited = s.inited
  | .core => t.core = s.core
  | .iep => t.iep = s.iep
  | .oep => t.oep = s.oep
  | .rxq => t.rxq = s.rxq
  | .txq => t.txq = s.txq
  | .din => t.din = s.din
  | .dout => t.dout = s.dout
  | .busActive => t.busActive = s.busActive
  | .events => t.events = s.events
  | .setupPending => t.setupPending = s.setupPending
  | .busTx => t.busTx = s.busTx
  | .tasks => t.tasks = s.tasks
  | .now => t.now = s.now
  | .mem => ∀ a, t.mem.readByte a = s.mem.readByte a
  | .fault => t.fault = s.fault
  | .refused => t.refused = s.refused ∧ t.refusedBy = s.refusedBy
  | .cur => t.cur = s.cur
  | .draws => t.draws = s.draws
  | .sched => t.sched = s.sched ∧ t.turns = s.turns

/-- Every part but the named ones is the same. -/
def OnlyChanges (ps : List Part) (s t : State) : Prop := ∀ p, p ∉ ps → Same p s t

/-- Every endpoint's value but endpoint e's is the same. -/
def SameBut {α : Type} (e : Ep) (x y : PerEp α) : Prop := ∀ k, k ≠ e → y.get k = x.get k

/-- A byte of the buffer memory outside `[a, a + n)` reads as before. -/
def SameOutside (a n : Nat) (s t : State) : Prop :=
  ∀ j, j < a ∨ a + n ≤ j → t.mem.readByte j = s.mem.readByte j

/-! ## How a command ends (10_state R46, R47, R49) -/

/-- The tasks other than task j are the same. -/
def OtherTasks (j : Nat) (s t : State) : Prop := ∀ m, m ≠ j → t.tasks[m]? = s.tasks[m]?

/-- The task after its command: `pc` moved by one, Done at the end of its list, and the result `r` where there is one. -/
def Task.next (k : Task) (r : Option Word) : Task where
  prog := k.prog
  pc := k.pc + 1
  phase := if dropCommands (k.pc + 1) k.prog = [] then .done else .ready
  res := match r with | some v => some v | none => k.res

/-- Task j's command completes, with the result `r` where there is one. -/
def Completed (j : Nat) (r : Option Word) (s t : State) : Prop :=
  (∀ k, s.tasks[j]? = some k → t.tasks[j]? = some (k.next r)) ∧ OtherTasks j s t

/-- The issuing task's command completes with an error code and changes nothing else (43_transfer_api R118, R119). -/
def ReturnsOnly (v : Word) (s t : State) : Prop := Completed s.cur (some v) s t ∧ OnlyChanges [.tasks] s t

/-- The issuing task waits for endpoint e since now, with the budget `tmo`. -/
def Waits (dir : Dir) (e : Ep) (tmo : Word) (s t : State) : Prop :=
  (∀ k, s.tasks[s.cur]? = some k → t.tasks[s.cur]? = some { k with phase := .waiting dir e s.now tmo }) ∧
  OtherTasks s.cur s t

/-- A refusal sets the mark and changes nothing else (60_exceptions R150). -/
def RefusedOnly (r : RefuseReason) (s t : State) : Prop :=
  t.refused = true ∧ t.refusedBy = some r ∧ OnlyChanges [.refused] s t

/-- The instruction is refused. -/
def Refuses (i : Instr) (r : RefuseReason) (s : State) : Prop := ∃ t, exec i s = .next t ∧ RefusedOnly r s t

/-- The instruction returns an error code. -/
def Returns (i : Instr) (v : Word) (s : State) : Prop := ∃ t, exec i s = .next t ∧ ReturnsOnly v s t

/-- A fault is recorded, the first one kept, and nothing else changes (10_state R49). -/
def FaultedOnly (f : FaultReason) (s t : State) : Prop :=
  t.fault = some (s.fault.getD f) ∧ OnlyChanges [.fault] s t

/-! ## Packets -/

/-- The words carry the `n` bytes `f 0, f 1, …` little-endian, in as few words as hold them (20_memory R56, R57). -/
def Carries (ws : List Word) (n : Nat) (f : Nat → Byte) : Prop :=
  ws.length = wordsFor n ∧ ∀ i, i < n → ∃ w, ws[i / 4]? = some w ∧ byteAt w (i % 4) = f i

/-- Address `a` is in the buffer of an Armed descriptor of the given table. -/
def InArmed (t : PerEp Descriptor) (a : Nat) : Prop :=
  ∃ e, (t.get e).status = .armed ∧ (t.get e).buf.toNat ≤ a ∧ a < (t.get e).buf.toNat + (t.get e).req.toNat

/-- Address `a` of the buffer `[buf, buf + size)` of an arm in direction `dir` is owned by an Armed descriptor, at least
one of the two an OUT one (20_memory R54). -/
def Owned (s : State) (dir : Dir) (buf size a : Nat) : Prop :=
  buf ≤ a ∧ a < buf + size ∧ (InArmed s.dout a ∨ (dir = .out ∧ InArmed s.din a))

/-- Address `a` is the lowest such one. -/
def LowestOwned (s : State) (dir : Dir) (buf size a : Nat) : Prop :=
  Owned s dir buf size a ∧ ∀ b, b < a → ¬ Owned s dir buf size b

/-- What check (5) of an IN arm refuses (43_transfer_api R120). -/
def InLimit (s : State) (e : Ep) (size : Nat) (r : RefuseReason) : Prop :=
  let tooLarge := s.cfg.xfrsizMax e < size ∨ s.cfg.pktcntMaxIn e < packetCount size (mpsIn s e)
  (r = .tooLarge ∧ tooLarge) ∨
  (r = .isoMultiPacket ∧ ¬ tooLarge ∧ (s.iep.get e).eptyp = .isochronous ∧ 1 < packetCount size (mpsIn s e))

/-- The seven checks of an arm step in their order, the first that applies deciding (43_transfer_api R117). -/
def ArmChecks (i : Instr) (s : State) (dir : Dir) (configured control armed : Prop) (limit : RefuseReason → Prop)
    (buf size : Nat) : Prop :=
  (s.inited = false → Refuses i .notInited s) ∧
  (s.inited = true → ¬ configured → Returns i (-4) s) ∧
  (s.inited = true → configured → ¬ control → Refuses i .notControl s) ∧
  (s.inited = true → configured → control → armed → Returns i (-1) s) ∧
  (∀ r, s.inited = true → configured → control → ¬ armed → limit r → Refuses i r s) ∧
  (s.inited = true → configured → control → ¬ armed → (∀ r, ¬ limit r) → memBytes s.cfg < buf + size →
    Refuses i .bufWrap s) ∧
  (∀ a, s.inited = true → configured → control → ¬ armed → (∀ r, ¬ limit r) → buf + size ≤ memBytes s.cfg →
    LowestOwned s dir buf size a → ∃ t, exec i s = .next t ∧ FaultedOnly (.bufferRace (BitVec.ofNat 32 a)) s t)

/-- None of the seven checks applies. -/
def ArmPasses (s : State) (dir : Dir) (configured control armed : Prop) (limit : RefuseReason → Prop)
    (buf size : Nat) : Prop :=
  s.inited = true ∧ configured ∧ control ∧ ¬ armed ∧ (∀ r, ¬ limit r) ∧ buf + size ≤ memBytes s.cfg ∧
  ∀ a, ¬ Owned s dir buf size a

/-- Whether a state is final. The spec says only that a state with a fault never is (00_scope R10, 10_state R49,
60_exceptions R151). That every other state is final exactly when all its tasks are Done, whatever `refused` is, is the
model's choice (DESIGN CHOICE, log 27). -/
def State.final (s : State) : Bool := s.fault.isNone && s.tasks.all (fun k => decide (k.phase = .done))

/-! ## Moves of the bus agent (45_bus_agent R136 to R145) -/

/-- The preconditions of a bus move: the bus itself (R136), and each move's own (R142 to R145). -/
def BusReady (s : State) (m : BusMove) : Prop :=
  s.inited = true ∧ s.core.sdis = false ∧ s.core.clkgate = false ∧
  match m with
  | .reset | .enumdone | .iso _ | .wake => True
  | .out e data _ _ =>
    let b := s.oep.get e
    let last := if b.pktcnt.toNat = 1 ∨ data.length < mpsOut s e then 1 else 0
    b.usbaep = true ∧ b.epena = true ∧ b.nak = false ∧ b.stall = false ∧ 0 < b.pktcnt.toNat ∧
      data.length ≤ mpsOut s e ∧ s.rxq.length + 1 + wordsFor data.length + last ≤ s.core.rxfd.toNat
  | .setup e data _ =>
    (s.oep.get e).usbaep = true ∧ (s.oep.get e).eptyp = .control ∧ data.length = 8 ∧
      s.rxq.length + 3 ≤ s.core.rxfd.toNat
  | .setupdone e => s.setupPending.get e = true ∧ s.rxq.length + 1 ≤ s.core.rxfd.toNat
  | .take e =>
    let b := s.iep.get e
    b.usbaep = true ∧ b.epena = true ∧ b.nak = false ∧ b.stall = false ∧ s.core.ginnak = false ∧
      0 < b.pktcnt.toNat ∧ wordsFor (min (mpsIn s e) b.xfrsiz.toNat) ≤ (s.txq.get e).length

/-! ## Agents, runs and fairness (00_scope R9, R10, 45_bus_agent R147) -/

/-- The four kinds of agent (00_scope R9). -/
inductive Agent where
  | task (j : Nat)
  | dispatcher
  | bus
  | clock
  deriving DecidableEq, Repr

/-- The agent whose move it is; the outside's read of a result is no agent's (log 21). -/
def Move.agent : Move → Option Agent
  | .task j => some (.task j)
  | .dispatch => some .dispatcher
  | .bus _ => some .bus
  | .tick => some .clock
  | .observe _ => none

/-- Whether a task is waiting for a transfer. -/
def Task.isWaiting (k : Task) : Bool :=
  match k.phase with
  | .ready => false
  | .waiting _ _ _ _ => true
  | .done => false

/-- The agent has an enabled step: a task that waits, or is Ready with a whole command to run or to refuse (log 16, log
19); the dispatcher once `inited` is true (42_bus_event_handler R102); the bus agent where one of its moves is enabled; the
clock always (45_bus_agent R146). -/
def HasStep (s : State) (a : Agent) : Prop :=
  match a with
  | .task j => ∃ k, s.tasks[j]? = some k ∧
      (k.isWaiting = true ∨ (k.phase = .ready ∧ decodeCommand (commandWords k) ≠ .error .truncated))
  | .dispatcher => s.inited = true
  | .bus => ∃ m, busEnabled s m = true
  | .clock => True

/-- An agent is stuck where it has no enabled step (00_scope R10). -/
def Stuck (s : State) (a : Agent) : Prop := ¬ HasStep s a

/-- A run: state after state, each the step of the one before on a turn that the scheduler chooses. At each point any
agent may be next (45_bus_agent R147), so the turns are free. -/
def IsRun (r : Nat → State) (us : Nat → Turn) : Prop := ∀ n, step { r n with sched := [us n] } = .next (r (n + 1))

/-- Agent `a` is weakly fair in a run: if from some point on it always has a step, it takes one after that point. -/
def WeaklyFair (r : Nat → State) (us : Nat → Turn) (a : Agent) : Prop :=
  ∀ n, (∀ m, n ≤ m → HasStep (r m) a) → ∃ m, n ≤ m ∧ (us m).move.agent = some a

/-- The fairness of 45_bus_agent R147: the dispatcher, the clock and every task are weakly fair, and the bus agent is
not. -/
def Fair (r : Nat → State) (us : Nat → Turn) : Prop :=
  WeaklyFair r us .dispatcher ∧ WeaklyFair r us .clock ∧ ∀ j, WeaklyFair r us (.task j)

/-- The ticks among the turns from `n` up to but not including `m`. -/
def ticks (us : Nat → Turn) (n m : Nat) : Nat := (List.range (m - n)).countP fun i => decide ((us (n + i)).move = .tick)

/-- Task j is never kept from its turn so long that the clock comes round: after any point it has a turn before `room`
milliseconds have passed. Weak fairness alone puts no bound on the ticks between two polls (log 1). -/
def TurnsWithin (us : Nat → Turn) (j room : Nat) : Prop :=
  ∀ n, ∃ m, n ≤ m ∧ (us m).move = .task j ∧ ticks us n m < room

/-! ## Rows of the opcode table, one after another -/

/-- Run instructions in order, each in the state the one before left. -/
def execAll : List Instr → State → Host.Outcome State Fault Refusal
  | [], s => .next s
  | i :: is, s =>
    match exec i s with
    | .next t => execAll is t
    | .fault f => .fault f
    | .refused r => .refused r

/-- The next iteration pops a status word of this kind for endpoint e: the receive service is selected, and the word is the
head of the receive FIFO (42_bus_event_handler R108, R109). -/
def Pops (s : State) (kind : BitVec 4) (e : Ep) : Prop :=
  (masked s).getLsbD rxflvlBit = true ∧
  ∃ w q, s.rxq = w :: q ∧ rxPktsts w = kind ∧ (rxEpnum w).toNat = e.val

/-- The services that a sampled status word selects, in their order (42_bus_event_handler R103, R104). -/
def selected (w : Word) : List Instr :=
  (if w.getLsbD usbrstBit then [.svcUsbrst] else []) ++ (if w.getLsbD enumdneBit then [.svcEnumdne] else [])
    ++ (if w.getLsbD rxflvlBit then [.svcRxflvl] else []) ++ (if w.getLsbD iepintBit then [.svcIepint] else [])
    ++ (if w.getLsbD oepintBit then [.svcOepint] else []) ++ (if w.getLsbD iisoixfrBit then [.svcIisoixfr] else [])
    ++ (if w.getLsbD ipxfrBit then [.svcIpxfr] else []) ++ (if w.getLsbD wkupintBit then [.svcWkupint] else [])

/-! ## The spec's tables, for the claims about the port (30_encoding R74, R75) -/

/-- OP, match and mask of each command (30_encoding R75). -/
def commandRows : List (Nat × Word × Word) :=
  [(1, 0x08000000, 0xFFFFFFFF), (2, 0x10000000, 0xFFFFFFFF), (3, 0x18000000, 0xFFFFFFFF), (4, 0x20000000, 0xFFFF0000),
    (5, 0x28000000, 0xF8FF0000), (6, 0x30000000, 0xF83FF800), (7, 0x38000000, 0xF83FF800), (8, 0x40000000, 0xF8F80000),
    (9, 0x48000000, 0xF8F80000), (10, 0x50000000, 0xF8F80000), (11, 0x58000000, 0xFFFFFF80),
    (12, 0x60000000, 0xF8FFFFFF), (13, 0x68000000, 0xF8FFFFFF), (14, 0x70000000, 0xF8FFFFFF), (15, 0x78000000, 0xF8FFFFFF)]

/-- The bits of a command word that must be zero, by OP: the fields marked 0 in 30_encoding R74. -/
def zeroBits : Nat → Word
  | 1 | 2 | 3 => 0x07FFFFFF
  | 4 => 0x07FF0000
  | 5 => 0x00FF0000
  | 6 | 7 => 0x003FF800
  | 8 | 9 | 10 => 0x00F80000
  | 11 => 0x07FFFF80
  | 12 | 13 | 14 | 15 => 0x00FFFFFF
  | _ => 0

/-! ## Invariants -/

/-- The buffer memory is in its canonical form. -/
def MemOk (s : State) : Prop := s.mem.wf (memBytes s.cfg) = true

/-- (a), (b) and (c) of 20_memory R55, for a RAM of `ram` words. -/
def AllocMeets (ram rxfd : Nat) (txsa txfd : Ep → Nat) : Prop :=
  (∀ e, 0 < txfd e → rxfd ≤ txsa e ∧ txsa e + txfd e ≤ ram) ∧
  (∀ e k, e ≠ k → 0 < txfd e → 0 < txfd k → txsa e + txfd e ≤ txsa k ∨ txsa k + txfd k ≤ txsa e) ∧
  rxfd ≤ ram

/-- The allocation registers meet 20_memory R55. -/
def AllocFits (s : State) : Prop :=
  AllocMeets s.cfg.fifoRamWords.toNat s.core.rxfd.toNat (fun e => (s.core.txsa.get e).toNat)
    (fun e => (s.core.txfd.get e).toNat)

/-- Every FIFO is within its capacity (10_state R37, R38). -/
def FifosFit (s : State) : Prop :=
  s.rxq.length ≤ s.core.rxfd.toNat ∧ ∀ e, (s.txq.get e).length ≤ (s.core.txfd.get e).toNat

/-- A receive FIFO of whole entries: a status word and the words of its byte count, one entry after another (20_memory
R61). -/
inductive Framed : List Word → Prop where
  | nil : Framed []
  | entry (w : Word) (data rest : List Word) : data.length = wordsFor (rxBcnt w).toNat → Framed rest →
      Framed (w :: (data ++ rest))

/-- The receive FIFO holds whole entries, and no underflow was ever recorded (20_memory R61, 60_exceptions R151). -/
def RxOk (s : State) : Prop := Framed s.rxq ∧ s.fault ≠ some .rxUnderflow

/-- A descriptor whose status is Armed or Complete has its offset within its request and a request that a command can
ask for, a Complete one reports its offset, and an Armed one's buffer does not wrap (10_state R41, 20_memory R53,
30_encoding R81), in a memory of `space` bytes. -/
def Descriptor.Ok (space : Nat) (d : Descriptor) : Prop :=
  (d.status = .armed → d.off.toNat ≤ d.req.toNat ∧ d.req.toNat < 2 ^ 19 ∧ d.buf.toNat + d.req.toNat ≤ space) ∧
  (∀ n, d.status = .complete n → n = d.off ∧ d.off.toNat ≤ d.req.toNat ∧ d.req.toNat < 2 ^ 19)

/-- Every descriptor is so. -/
def DescsOk (s : State) : Prop := ∀ e, (s.din.get e).Ok (memBytes s.cfg) ∧ (s.dout.get e).Ok (memBytes s.cfg)

/-- Two byte ranges share no byte. -/
def Apart (b1 n1 b2 n2 : Nat) : Prop := ∀ a, b1 ≤ a → a < b1 + n1 → b2 ≤ a → a < b2 + n2 → False

/-- An Armed OUT buffer shares no byte with another Armed buffer (20_memory R54). -/
def BuffersApart (s : State) : Prop :=
  (∀ e k, (s.dout.get e).status = .armed → (s.din.get k).status = .armed →
    Apart (s.dout.get e).buf.toNat (s.dout.get e).req.toNat (s.din.get k).buf.toNat (s.din.get k).req.toNat) ∧
  (∀ e k, e ≠ k → (s.dout.get e).status = .armed → (s.dout.get k).status = .armed →
    Apart (s.dout.get e).buf.toNat (s.dout.get e).req.toNat (s.dout.get k).buf.toNat (s.dout.get k).req.toNat)

/-- A configured bank's maximum packet size is at least one byte and at most MPS_MAX, or one of endpoint 0's four codes,
and endpoint 0 is a control endpoint (00_scope R13, 41_endpoint_config R96, R97). -/
def SizeOk (s : State) (e : Ep) (active : Bool) (ty : EpType) (mpsiz : BitVec 11) : Prop :=
  active = true →
    if e = 0 then ty = .control ∧ mpsiz.toNat < 4 else 1 ≤ mpsiz.toNat ∧ mpsiz.toNat ≤ s.cfg.mpsMax.toNat

/-- The register mapper's invariant (41_endpoint_config R98): the interrupt class of an endpoint is on exactly when its
bank is active, an active IN endpoint has its own transmit FIFO, and active banks have a legal size. -/
def MapperOk (s : State) : Prop :=
  ∀ e, s.core.iepm.get e = (s.iep.get e).usbaep ∧ s.core.oepm.get e = (s.oep.get e).usbaep ∧
    ((s.iep.get e).usbaep = true → (s.iep.get e).txfnum.toNat = e.val) ∧
    SizeOk s e (s.iep.get e).usbaep (s.iep.get e).eptyp (s.iep.get e).mpsiz ∧
    SizeOk s e (s.oep.get e).usbaep (s.oep.get e).eptyp (s.oep.get e).mpsiz

/-- After `init` the masks and the mode bits that no later command writes hold their baseline (10_state R20, R22, R27,
R30). -/
def BaselineOk (s : State) : Prop :=
  s.inited = true →
    s.core.gintmsk = 0x803C3010 ∧ s.core.physel = true ∧ s.core.fdmod = true ∧ s.core.dspd = 3 ∧
    s.core.diepmskXfrcm = true ∧ s.core.doepmskXfrcm = true ∧ s.core.doepmskStupm = true

/-- Endpoint 0's size fields stay within the bits it uses (10_state R32, R35). -/
def Ep0FieldsOk (s : State) : Prop :=
  (s.iep.get 0).xfrsiz.toNat < 2 ^ 7 ∧ (s.iep.get 0).pktcnt.toNat < 2 ^ 2 ∧
  (s.oep.get 0).xfrsiz.toNat < 2 ^ 7 ∧ (s.oep.get 0).pktcnt.toNat < 2

/-- Before `init` no task waits (10_state R19). -/
def QuietBeforeInit (s : State) : Prop := s.inited = false → ∀ k ∈ s.tasks, k.isWaiting = false

/-- A task that is Done has no command left (10_state R46). -/
def DoneAtEnd (s : State) : Prop := ∀ k ∈ s.tasks, k.phase = .done → dropCommands k.pc k.prog = []

/-- With one caller task, the descriptor it waits for is not Idle (43_transfer_api R123). -/
def WaitedNotIdle (s : State) : Prop :=
  s.tasks.length ≤ 1 ∧
  ∀ k ∈ s.tasks, ∀ dir e t0 tmo, k.phase = .waiting dir e t0 tmo → (descriptor s dir e).status ≠ .idle

/-- The clock, and every time a task waits since, is a number of CLOCK_BITS bits (10_state R46, R48). -/
def ClockOk (s : State) : Prop :=
  s.now < clockPeriod s.cfg ∧ ∀ k ∈ s.tasks, ∀ dir e t0 tmo, k.phase = .waiting dir e t0 tmo → t0 < clockPeriod s.cfg

/-- The invariants together. -/
def Inv (s : State) : Prop :=
  MemOk s ∧ AllocFits s ∧ FifosFit s ∧ RxOk s ∧ DescsOk s ∧ BuffersApart s ∧ MapperOk s ∧ BaselineOk s ∧ Ep0FieldsOk s ∧
  QuietBeforeInit s ∧ DoneAtEnd s ∧ ClockOk s

/-- Two states before `init` that agree on every field the spec specifies there (70_reset_and_hazards R165), on the
parameters and on the model's own fields. -/
def PreInitEq (s u : State) : Prop :=
  s.inited = false ∧ u.inited = false ∧ u.cfg = s.cfg ∧ u.events = s.events ∧ u.setupPending = s.setupPending ∧
  u.busTx = s.busTx ∧ u.tasks = s.tasks ∧ u.now = s.now ∧ u.mem = s.mem ∧ u.fault = s.fault ∧ u.refused = s.refused ∧
  u.refusedBy = s.refusedBy ∧ u.cur = s.cur ∧ u.draws = s.draws ∧ u.sched = s.sched ∧ u.turns = s.turns

end Sys2Proof.Machine
end

