-- ==== Sys2Proof/Certificates/Slice0/Obligations.lean ====
section
/-! DEFINITION. The statements for the provers, one for each rule or group of rules of the spec. Each holds in every state
that meets its hypotheses, reached by a run or not. `OnlyChanges` is the frame: every part of the state it does not name
is as before, the buffer memory byte by byte. -/

open Sys2Proof Sys2Proof.Machine

/-! ## The step and the decoders -/

/-- A turn of a ready task whose words decode runs exactly that instruction, in the state that has used the turn up
(10_state R46, log 1, log 3). -/
def Obligations.StepRunsDecodedCommand : Prop :=
  ∀ (s : State) (j : Nat) (k : Machine.Task) (i : Instr),
    (nextTurn s).move = .task j → s.tasks[j]? = some k → k.phase = .ready →
    decodeCommand (dropCommands k.pc k.prog) = .ok i →
    step s = exec i { s with
      cur := j, draws := (nextTurn s).draws, sched := s.sched.tail,
      turns := if s.sched = [] then s.turns + 1 else s.turns }

/-- Words written out from the spec's tables decode to what they stand for (30_encoding R75, R83, R84, R85, R90;
95_test_vectors ENC, RXW). -/
def Obligations.SampleWordsDecode : Prop :=
  decodeIn .port [0x08000000] = .ok .init ∧
  decodeIn .port [0x2F000010] = .ok (.setTxFifoSize 7 16) ∧
  decodeIn .port [0x31C00040] = .ok (.configureInEp 1 .interrupt 64) ∧
  decodeIn .port [0x49000080, 0x20000000, 0x000003E8] = .ok (.outTransfer 1 128 0x20000000 1000) ∧
  decodeIn .port [0x5800007F] = .ok (.setDeviceAddress 127) ∧
  decodeIn .port [0x6A000000] = .ok (.stallOutEp 2) ∧
  decodeIn .primitive [0xC0000000, 0x20000000, 5] = .ok (.readPacket 0x20000000 5) ∧
  decodeIn .gintsts [0x00040000] = .ok .svcIepint ∧
  decodeIn .rxsts [0x00A50401] = .ok (.rxOutData 1 64 2 5) ∧
  decodeIn .rxsts [0x00080000] = .ok (.rxSetupDone 0 0 0 0) ∧
  decodeIn (.diepint 3) [0x00000080] = .ok (.iepTxfe 3) ∧
  decodeIn (.doepint 2) [0x00000008] = .ok (.oepStup 2) ∧
  (AsmLine.sendZlp 1 10).words = [0x41000000, 0x00000000, 0x0000000A]

/-- Every decoder inverts the encoder on every well-formed instruction, whatever words follow, and a command takes just
its own words (30_encoding R70 to R75, R83 to R85). -/
def Obligations.EncodeDecodeRoundTrip : Prop :=
  ∀ (i : Instr) (rest : List Word), i.wellFormed = true →
    decodeIn i.space (encode i ++ rest) = .ok i ∧ (i.space = .port → dropCommand (encode i ++ rest) = rest)

/-- The port decodes nothing but encodings: what decodes is well formed, and its encoding and the rest are the words
(30_encoding R71 to R75). -/
def Obligations.DecodedCommandReencodes : Prop :=
  ∀ (ws : List Word) (i : Instr), decodeCommand ws = .ok i →
    i.wellFormed = true ∧ i.space = .port ∧ encode i ++ dropCommand ws = ws

/-- The match and mask table of 30_encoding R75 is what the port decodes, and no two of its rows match one word. -/
def Obligations.CommandsMatchTheMaskTable : Prop :=
  (∀ row ∈ commandRows, ∀ w buf tmo : Word,
    (∃ i, decodeCommand [w, buf, tmo] = .ok i ∧ i.op = some (BitVec.ofNat 5 row.1)) ↔ w &&& row.2.2 = row.2.1) ∧
  (∀ r1 ∈ commandRows, ∀ r2 ∈ commandRows, ∀ w : Word, w &&& r1.2.2 = r1.2.1 → w &&& r2.2.2 = r2.2.1 → r1 = r2)

/-- The port refuses the three kinds of word of 30_encoding R76 and nothing else, and a refusal sets `refused` and has no
other effect: `pc` stays too (log 9). -/
def Obligations.PortRefusesThreeKinds : Prop :=
  (∀ (w : Word) (rest : List Word),
    (w.toNat / 2 ^ 27 = 0 ∨ (16 ≤ w.toNat / 2 ^ 27 ∧ w.toNat / 2 ^ 27 ≤ 23) ∨ 27 ≤ w.toNat / 2 ^ 27 →
      decodeCommand (w :: rest) = .error .reservedOp) ∧
    (24 ≤ w.toNat / 2 ^ 27 → w.toNat / 2 ^ 27 ≤ 26 → decodeCommand (w :: rest) = .error .internalOp) ∧
    (1 ≤ w.toNat / 2 ^ 27 → w.toNat / 2 ^ 27 ≤ 15 → w &&& zeroBits (w.toNat / 2 ^ 27) ≠ 0 →
      decodeCommand (w :: rest) = .error .nonZeroField) ∧
    (1 ≤ w.toNat / 2 ^ 27 → w.toNat / 2 ^ 27 ≤ 15 → w &&& zeroBits (w.toNat / 2 ^ 27) = 0 → 2 ≤ rest.length →
      ∃ i, decodeCommand (w :: rest) = .ok i)) ∧
  (∀ (s : State) (j : Nat) (k : Machine.Task) (r : DecodeRefusal) (reason : RefuseReason),
    (nextTurn s).move = .task j → s.tasks[j]? = some k → k.phase = .ready →
    decodeCommand (dropCommands k.pc k.prog) = .error r →
    (r = .reservedOp ∧ reason = .reservedOp ∨ r = .nonZeroField ∧ reason = .nonZeroField ∨
      r = .internalOp ∧ reason = .internalOp) →
    ∃ t, step s = .next t ∧ t.refused = true ∧ t.refusedBy = some reason ∧
      OnlyChanges [.refused, .cur, .draws, .sched] s t)

/-- A command's length comes from OP alone (30_encoding R72), and its operands are the zero-extended fields of its words
(R73). -/
def Obligations.CommandLengthAndOperands : Prop :=
  (∀ (w : Word) (rest : List Word), dropCommand (w :: rest) =
    rest.drop (if w.toNat / 2 ^ 27 = 8 ∨ w.toNat / 2 ^ 27 = 9 ∨ w.toNat / 2 ^ 27 = 10 then 2 else 0)) ∧
  (∀ (w buf tmo : Word) (rest : List Word) (i : Instr), decodeCommand (w :: buf :: tmo :: rest) = .ok i →
    let ep := w.toNat / 2 ^ 24 % 2 ^ 3
    let type := w.toNat / 2 ^ 22 % 2 ^ 2
    match i with
    | .init | .connect | .disconnect => True
    | .setRxFifoSize words => words.toNat = w.toNat % 2 ^ 16
    | .setTxFifoSize e words => e.val = ep ∧ words.toNat = w.toNat % 2 ^ 16
    | .configureInEp e ty mps => e.val = ep ∧ ty.code.toNat = type ∧ mps.toNat = w.toNat % 2 ^ 11
    | .configureOutEp e ty mps => e.val = ep ∧ ty.code.toNat = type ∧ mps.toNat = w.toNat % 2 ^ 11
    | .inTransfer e size b t => e.val = ep ∧ size.toNat = w.toNat % 2 ^ 19 ∧ b = buf ∧ t = tmo
    | .outTransfer e size b t => e.val = ep ∧ size.toNat = w.toNat % 2 ^ 19 ∧ b = buf ∧ t = tmo
    | .setupTransfer e size b t => e.val = ep ∧ size.toNat = w.toNat % 2 ^ 19 ∧ b = buf ∧ t = tmo
    | .setDeviceAddress addr => addr.toNat = w.toNat % 2 ^ 7
    | .stallInEp e | .stallOutEp e | .disableInEp e | .disableOutEp e => e.val = ep
    | .readPacket _ _ | .writePacket _ _ _ | .dumpPacket _ => False
    | .svcUsbrst | .svcEnumdne | .svcRxflvl | .svcIepint => False
    | .svcOepint | .svcIisoixfr | .svcIpxfr | .svcWkupint => False
    | .rxGlobalOutNak _ _ _ _ | .rxOutData _ _ _ _ | .rxOutXferDone _ _ _ _ => False
    | .rxSetupDone _ _ _ _ | .rxSetupData _ _ _ _ => False
    | .iepXfrc _ | .iepTxfe _ | .oepXfrc _ | .oepStup _ => False)

/-! ## Derived values -/

/-- Bit k of the masked interrupt status (10_state R23, R24, R34, R36, at the positions of 30_encoding R83). -/
def Obligations.MaskedStatusBits : Prop :=
  ∀ (s : State) (k : Nat), (masked s).getLsbD k = true ↔
    s.core.gint = true ∧ s.core.gintmsk.getLsbD k = true ∧
    ((k = 4 ∧ s.rxq ≠ []) ∨ (k = 12 ∧ s.core.usbrst = true) ∨ (k = 13 ∧ s.core.enumdne = true) ∨
      (k = 18 ∧ ∃ e, s.core.iepm.get e = true ∧
        (((s.iep.get e).xfrc = true ∧ s.core.diepmskXfrcm = true) ∨
          (s.txq.get e = [] ∧ s.core.txfem.get e = true))) ∨
      (k = 19 ∧ ∃ e, s.core.oepm.get e = true ∧
        (((s.oep.get e).xfrc = true ∧ s.core.doepmskXfrcm = true) ∨
          ((s.oep.get e).stup = true ∧ s.core.doepmskStupm = true))) ∨
      (k = 20 ∧ s.core.iisoixfr = true) ∨ (k = 21 ∧ s.core.ipxfr = true) ∨ (k = 31 ∧ s.core.wkupint = true))

/-- `packet_count` is the larger of 1 and the smallest integer whose multiple of mps holds the size (43_transfer_api R116,
00_scope R13). -/
def Obligations.PacketCountLaw : Prop :=
  (∀ size mps : Nat, 1 ≤ mps → ∃ q, packetCount size mps = max 1 q ∧ size ≤ q * mps ∧ ∀ r, size ≤ r * mps → q ≤ r) ∧
  ∀ n : Nat, packetCount 0 n = 1

/-- Endpoint 0's size codes and their inverse, the raw byte count of the others, and the MPSIZ that a configure command
writes of them (30_encoding R80). -/
def Obligations.MaxPacketSizeCodes : Prop :=
  (∀ (n : Nat) (c : BitVec 2), mpsCode n = some c ↔
    (n = 8 ∧ c = 3) ∨ (n = 16 ∧ c = 2) ∨ (n = 32 ∧ c = 1) ∨ (n = 64 ∧ c = 0)) ∧
  (∀ v : BitVec 11, [64, 32, 16, 8][v.toNat % 4]? = some (mpsDecode 0 v)) ∧
  (∀ (e : Ep) (v : BitVec 11), e ≠ 0 → mpsDecode e v = v.toNat) ∧
  (∀ (cfg : Config) (e : Ep) (ty : EpType) (mps v : BitVec 11), mpsizFor cfg e ty mps = .ok v →
    (e ≠ 0 → v = mps) ∧ (e = 0 → mpsCode mps.toNat = some (v.setWidth 2))) ∧
  ∀ (n : Nat) (c : BitVec 2), mpsCode n = some c → mpsDecode 0 (c.setWidth 11) = n

/-- A packet's byte i stands in word i / 4 at bits [8 (i mod 4) + 7 : 8 (i mod 4)], in as few words as hold the bytes, and
unpacking gives the bytes back whatever the padding was (20_memory R56, R57, R58). -/
def Obligations.PackingIsLittleEndian : Prop :=
  ∀ (pad : Word) (bs : List Byte),
    (∀ (i : Nat) (b : Byte), bs[i]? = some b →
      ∃ w, (packBytes pad bs)[i / 4]? = some w ∧ w.toNat / 2 ^ (8 * (i % 4)) % 2 ^ 8 = b.toNat) ∧
    4 * (packBytes pad bs).length < bs.length + 4 ∧ bs.length ≤ 4 * (packBytes pad bs).length ∧
    (unpackWords (packBytes pad bs)).take bs.length = bs

/-- The register words hold the fields of the state at the bits of 30_encoding R84, R86 and R87, which the spec marks as
general knowledge; the bits that act when they are written do so, at their places. What EPDIS and CSRST do and what such a
bit reads as are the model's and not claimed here (log 22, log 28). -/
def Obligations.RegisterWordsHoldTheirFields : Prop :=
  ∀ (s : State) (e : Ep), let i := s.iep.get e; let o := s.oep.get e; let c := s.core
    (∃ w, regWord s (.diepctl e) = some w ∧ (e ≠ 0 → w.extractLsb 10 0 = i.mpsiz) ∧
      (e = 0 → w.extractLsb 1 0 = i.mpsiz.extractLsb 1 0) ∧ w.getLsbD 15 = i.usbaep ∧ w.getLsbD 17 = i.nak ∧
      w.extractLsb 19 18 = i.eptyp.code ∧ w.getLsbD 21 = i.stall ∧ w.extractLsb 25 22 = i.txfnum ∧
      w.getLsbD 31 = i.epena) ∧
    (∃ w, regWord s (.doepctl e) = some w ∧ (e ≠ 0 → w.extractLsb 10 0 = o.mpsiz) ∧
      (e = 0 → w.extractLsb 1 0 = o.mpsiz.extractLsb 1 0) ∧ w.getLsbD 15 = o.usbaep ∧ w.getLsbD 17 = o.nak ∧
      w.extractLsb 19 18 = o.eptyp.code ∧ w.getLsbD 21 = o.stall ∧ w.getLsbD 31 = o.epena) ∧
    (∃ w, regWord s (.dieptsiz e) = some w ∧
      (e ≠ 0 → w.extractLsb 18 0 = i.xfrsiz ∧ w.extractLsb 28 19 = i.pktcnt ∧ w.extractLsb 30 29 = i.mcnt) ∧
      (e = 0 → w.extractLsb 6 0 = i.xfrsiz.extractLsb 6 0 ∧ w.extractLsb 20 19 = i.pktcnt.extractLsb 1 0)) ∧
    (∃ w, regWord s (.doeptsiz e) = some w ∧ w.extractLsb 30 29 = o.stupcnt ∧
      (e ≠ 0 → w.extractLsb 18 0 = o.xfrsiz ∧ w.extractLsb 28 19 = o.pktcnt) ∧
      (e = 0 → w.extractLsb 6 0 = o.xfrsiz.extractLsb 6 0 ∧ w.getLsbD 19 = o.pktcnt.getLsbD 0)) ∧
    (∃ w, regWord s (.diepint e) = some w ∧ w.getLsbD 0 = i.xfrc ∧ (w.getLsbD 7 = true ↔ s.txq.get e = [])) ∧
    (∃ w, regWord s (.doepint e) = some w ∧ w.getLsbD 0 = o.xfrc ∧ w.getLsbD 3 = o.stup) ∧
    (∃ w, regWord s (.dtxfsts e) = some w ∧
      (w.extractLsb 15 0).toNat = (c.txfd.get e).toNat - (s.txq.get e).length) ∧
    (∃ w, regWord s (.dieptxf e) = some w ∧ w.extractLsb 15 0 = c.txsa.get e ∧ w.extractLsb 31 16 = c.txfd.get e) ∧
    (∃ w, regWord s .daintmsk = some w ∧ w.getLsbD e.val = c.iepm.get e ∧ w.getLsbD (16 + e.val) = c.oepm.get e) ∧
    (∃ w, regWord s .diepempmsk = some w ∧ w.getLsbD e.val = c.txfem.get e) ∧
    (∃ w, regWord s .gusbcfg = some w ∧ w.getLsbD 6 = c.physel ∧ w.extractLsb 13 10 = c.trdt ∧ w.getLsbD 30 = c.fdmod) ∧
    (∃ w, regWord s .gahbcfg = some w ∧ w.getLsbD 0 = c.gint) ∧
    (∃ w, regWord s .grxfsiz = some w ∧ w.extractLsb 15 0 = c.rxfd) ∧
    (∃ w, regWord s .dcfg = some w ∧ w.extractLsb 1 0 = c.dspd ∧ w.extractLsb 10 4 = c.dad) ∧
    (∃ w, regWord s .dctl = some w ∧ w.getLsbD 1 = c.sdis ∧ w.getLsbD 2 = c.ginnak) ∧
    (∃ w, regWord s .diepmsk = some w ∧ w.getLsbD 0 = c.diepmskXfrcm) ∧
    (∃ w, regWord s .doepmsk = some w ∧ w.getLsbD 0 = c.doepmskXfrcm ∧ w.getLsbD 3 = c.doepmskStupm) ∧
    (∃ w, regWord s .pcgcctl = some w ∧ w.getLsbD 0 = c.clkgate ∧ w.getLsbD 1 = c.clkgate) ∧
    (∀ dir v, ∃ t, CommandBit.act (if v = true then .snak dir e else .cnak dir e) s = some t ∧
      (∃ w, regWord t (ctlReg dir e) = some w ∧ w.getLsbD 17 = v) ∧
      (dir = .inn → t.iep.get e = { i with nak := v } ∧ SameBut e s.iep t.iep ∧ OnlyChanges [.iep] s t) ∧
      (dir = .out → t.oep.get e = { o with nak := v } ∧ SameBut e s.oep t.oep ∧ OnlyChanges [.oep] s t)) ∧
    (∀ v, ∃ t, CommandBit.act (if v = true then .sginak else .cginak) s = some t ∧
      t.core = { c with ginnak := v } ∧ OnlyChanges [.core] s t) ∧
    (∃ t, CommandBit.act .rxfflsh s = some t ∧ t.rxq = [] ∧ OnlyChanges [.rxq] s t) ∧
    (∃ t, CommandBit.act (.txfflsh 0x10) s = some t ∧ (∀ k, t.txq.get k = []) ∧ OnlyChanges [.txq] s t) ∧
    (∃ t, CommandBit.act (.txfflsh (BitVec.ofNat 5 e.val)) s = some t ∧ t.txq.get e = [] ∧ SameBut e s.txq t.txq ∧
      OnlyChanges [.txq] s t) ∧
    (∀ dir, (CommandBit.cnak dir e).reg = ctlReg dir e ∧ (CommandBit.cnak dir e).word.toNat = 2 ^ 26 ∧
      (CommandBit.snak dir e).reg = ctlReg dir e ∧ (CommandBit.snak dir e).word.toNat = 2 ^ 27 ∧
      (CommandBit.epdis dir e).reg = ctlReg dir e ∧ (CommandBit.epdis dir e).word.toNat = 2 ^ 30) ∧
    ctlReg .inn e = .diepctl e ∧ ctlReg .out e = .doepctl e ∧
    CommandBit.sginak.reg = .dctl ∧ CommandBit.sginak.word.toNat = 2 ^ 7 ∧
    CommandBit.cginak.reg = .dctl ∧ CommandBit.cginak.word.toNat = 2 ^ 8 ∧
    CommandBit.csrst.reg = .grstctl ∧ CommandBit.csrst.word.toNat = 2 ^ 0 ∧
    CommandBit.rxfflsh.reg = .grstctl ∧ CommandBit.rxfflsh.word.toNat = 2 ^ 4 ∧
    ∀ n, (CommandBit.txfflsh n).reg = .grstctl ∧ (CommandBit.txfflsh n).word.toNat = 2 ^ 5 + n.toNat * 2 ^ 6

/-! ## Bus control (44_bus_control) -/

/-- INIT: refused after a successful one; Fatal where a spin loop runs out of its cap, with nothing else written; else the
table of 10_state R50, where TRDT may have any value (R133). -/
def Obligations.InitOutcomes : Prop :=
  ∀ s : State,
    (s.inited = true → Refuses .init .reInit s) ∧
    (s.inited = false → s.draws.initSpinOk = false → Returns .init (-4) s) ∧
    (s.inited = false → s.draws.initSpinOk = true → ∃ t, exec .init s = .next t ∧ t.inited = true ∧
      (∃ trdt, t.core = {
        physel := true, fdmod := true, trdt := trdt, gint := true, gintmsk := 0x803C3010, usbrst := false,
        enumdne := false, iisoixfr := false, ipxfr := false, wkupint := false, rxfd := 0, txsa := .all 0, txfd := .all 0,
        dspd := 3, dad := 0, sdis := true, ginnak := true, clkgate := false, diepmskXfrcm := true, doepmskXfrcm := true,
        doepmskStupm := true, iepm := .all false, oepm := .all false, txfem := .all false }) ∧
      (∀ e, t.iep.get e = {
          mpsiz := 0, usbaep := false, eptyp := .control, txfnum := 0, stall := false, nak := false, epena := false,
          xfrsiz := 0, pktcnt := 0, mcnt := 0, xfrc := false } ∧
        t.oep.get e = {
          mpsiz := 0, usbaep := false, eptyp := .control, stall := false, nak := false, epena := false, xfrsiz := 0,
          pktcnt := 0, stupcnt := 0, xfrc := false, stup := false } ∧
        t.txq.get e = [] ∧ t.din.get e = ⟨.idle, 0, 0, 0⟩ ∧ t.dout.get e = ⟨.idle, 0, 0, 0⟩ ∧
        t.setupPending.get e = false) ∧
      t.rxq = [] ∧ t.busActive = false ∧ Completed s.cur none s t ∧
      OnlyChanges [.inited, .core, .iep, .oep, .rxq, .txq, .din, .dout, .busActive, .setupPending, .tasks] s t)

/-- CONNECT and DISCONNECT (44_bus_control R134, R135): after DISCONNECT no source reaches the dispatcher and no bus move is
enabled. -/
def Obligations.ConnectAndDisconnect : Prop :=
  ∀ s : State,
    (s.inited = false → Refuses .connect .notInited s ∧ Refuses .disconnect .notInited s) ∧
    (s.inited = true →
      (∃ t, exec .connect s = .next t ∧
        t.core = { s.core with
          sdis := false, clkgate := false, gint := if s.cfg.connectRestoresGint = true then true else s.core.gint } ∧
        Completed s.cur none s t ∧ OnlyChanges [.core, .tasks] s t) ∧
      (∃ t, exec .disconnect s = .next t ∧ t.core = { s.core with sdis := true, clkgate := true, gint := false } ∧
        t.busActive = false ∧ masked t = 0 ∧ (∀ m, busEnabled t m = false) ∧
        Completed s.cur none s t ∧ OnlyChanges [.core, .busActive, .tasks] s t))

/-- Before `init` every command but INIT is refused, with no other effect (10_state R19, 60_exceptions R150). -/
def Obligations.CommandsRefusedBeforeInit : Prop :=
  ∀ (i : Instr) (s : State), i.space = .port → i ≠ .init → s.inited = false → Refuses i .notInited s

/-! ## Endpoint configuration (41_endpoint_config) -/

/-- CONFIGURE_IN_EP: its refusals in their order, else the bank's mapping and the interrupt class (R95, R96). Endpoint 0's
sizes are the parameter MPS_EP0_SET of 00_scope R7, here any list, of which only the sizes of R96 have a code (log 8). -/
def Obligations.ConfigureInEpMapsTheBank : Prop :=
  ∀ (e : Ep) (ty : EpType) (mps : BitVec 11) (s : State),
    let i := Instr.configureInEp e ty mps
    let sizeOk := (e = 0 ∧ mps ∈ s.cfg.mpsEp0Set ∧ mps ∈ [8, 16, 32, 64]) ∨
      (e ≠ 0 ∧ 1 ≤ mps.toNat ∧ mps.toNat ≤ s.cfg.mpsMax.toNat)
    (s.inited = false → Refuses i .notInited s) ∧
    (s.inited = true →
      ((s.din.get e).status = .armed → Refuses i .reconfigureInFlight s) ∧
      ((s.din.get e).status ≠ .armed → e = 0 → ty ≠ .control → Refuses i .ep0NotControl s) ∧
      ((s.din.get e).status ≠ .armed → (e = 0 → ty = .control) → ¬ sizeOk → Refuses i .badMps s) ∧
      ((s.din.get e).status ≠ .armed → (e = 0 → ty = .control) → sizeOk → ∃ t, exec i s = .next t ∧
        (∃ v, t.iep.get e = { s.iep.get e with mpsiz := v, eptyp := ty, txfnum := BitVec.ofNat 4 e.val, usbaep := true } ∧
          (e ≠ 0 → v = mps) ∧
          (e = 0 → (mps = 8 → v = 3) ∧ (mps = 16 → v = 2) ∧ (mps = 32 → v = 1) ∧ (mps = 64 → v = 0))) ∧
        mpsIn t e = mps.toNat ∧ SameBut e s.iep t.iep ∧ t.core = { s.core with iepm := s.core.iepm.set e true } ∧
        Completed s.cur none s t ∧ OnlyChanges [.iep, .core, .tasks] s t))

/-- CONFIGURE_OUT_EP, the same for the OUT bank, which has no FIFO number (R95, R97; MPS_EP0_SET of 00_scope R7 as there,
log 8). -/
def Obligations.ConfigureOutEpMapsTheBank : Prop :=
  ∀ (e : Ep) (ty : EpType) (mps : BitVec 11) (s : State),
    let i := Instr.configureOutEp e ty mps
    let sizeOk := (e = 0 ∧ mps ∈ s.cfg.mpsEp0Set ∧ mps ∈ [8, 16, 32, 64]) ∨
      (e ≠ 0 ∧ 1 ≤ mps.toNat ∧ mps.toNat ≤ s.cfg.mpsMax.toNat)
    (s.inited = false → Refuses i .notInited s) ∧
    (s.inited = true →
      ((s.dout.get e).status = .armed → Refuses i .reconfigureInFlight s) ∧
      ((s.dout.get e).status ≠ .armed → e = 0 → ty ≠ .control → Refuses i .ep0NotControl s) ∧
      ((s.dout.get e).status ≠ .armed → (e = 0 → ty = .control) → ¬ sizeOk → Refuses i .badMps s) ∧
      ((s.dout.get e).status ≠ .armed → (e = 0 → ty = .control) → sizeOk → ∃ t, exec i s = .next t ∧
        (∃ v, t.oep.get e = { s.oep.get e with mpsiz := v, eptyp := ty, usbaep := true } ∧ (e ≠ 0 → v = mps) ∧
          (e = 0 → (mps = 8 → v = 3) ∧ (mps = 16 → v = 2) ∧ (mps = 32 → v = 1) ∧ (mps = 64 → v = 0))) ∧
        mpsOut t e = mps.toNat ∧ SameBut e s.oep t.oep ∧ t.core = { s.core with oepm := s.core.oepm.set e true } ∧
        Completed s.cur none s t ∧ OnlyChanges [.oep, .core, .tasks] s t))

/-- SET_RX_FIFO_SIZE: busy, then the allocation check on the clamped depth, else RXFD (R99, R101). -/
def Obligations.SetRxFifoSizeEffect : Prop :=
  ∀ (words : BitVec 16) (s : State),
    let i := Instr.setRxFifoSize words
    let w := max words.toNat s.cfg.fifoMinWords.toNat
    let busy := s.rxq ≠ [] ∨ ∃ k, (s.dout.get k).status = .armed
    let fits := AllocMeets s.cfg.fifoRamWords.toNat w (fun e => (s.core.txsa.get e).toNat)
      (fun e => (s.core.txfd.get e).toNat)
    (s.inited = false → Refuses i .notInited s) ∧
    (s.inited = true →
      (busy → Refuses i .resizeBusy s) ∧ (¬ busy → ¬ fits → Refuses i .fifoAlloc s) ∧
      (¬ busy → fits → ∃ t, exec i s = .next t ∧ t.core.rxfd.toNat = w ∧ t.core = { s.core with rxfd := t.core.rxfd } ∧
        Completed s.cur none s t ∧ OnlyChanges [.core, .tasks] s t))

/-- SET_TX_FIFO_SIZE: busy, then the allocation check on the clamped depth at the cumulative start, else TXSA and TXFD of
the endpoint (R100, R101). -/
def Obligations.SetTxFifoSizeEffect : Prop :=
  ∀ (e : Ep) (words : BitVec 16) (s : State),
    let i := Instr.setTxFifoSize e words
    let w := max words.toNat s.cfg.fifoMinWords.toNat
    let sa := s.core.rxfd.toNat + (Finset.univ.filter fun k : Ep => k < e).sum fun k => (s.core.txfd.get k).toNat
    let busy := s.txq.get e ≠ [] ∨ (s.din.get e).status = .armed
    let fits := AllocMeets s.cfg.fifoRamWords.toNat s.core.rxfd.toNat
      (fun k => if k = e then sa else (s.core.txsa.get k).toNat)
      (fun k => if k = e then w else (s.core.txfd.get k).toNat)
    (s.inited = false → Refuses i .notInited s) ∧
    (s.inited = true →
      (busy → Refuses i .resizeBusy s) ∧ (¬ busy → ¬ fits → Refuses i .fifoAlloc s) ∧
      (¬ busy → fits → ∃ t, exec i s = .next t ∧
        t.core = { s.core with
          txsa := s.core.txsa.set e (BitVec.ofNat 16 sa), txfd := s.core.txfd.set e (BitVec.ofNat 16 w) } ∧
        (0 < w → (t.core.txsa.get e).toNat = sa ∧ (t.core.txfd.get e).toNat = w) ∧
        Completed s.cur none s t ∧ OnlyChanges [.core, .tasks] s t))

/-- `alloc_ok` holds exactly when the candidate allocation meets (a), (b) and (c) (R101). -/
def Obligations.AllocCheckMeaning : Prop :=
  ∀ (ram rxfd : Nat) (txsa txfd : PerEp Nat), allocOk ram rxfd txsa txfd = true ↔ AllocMeets ram rxfd txsa.get txfd.get

/-! ## Transfers (43_transfer_api) -/

/-- The three arms make the seven checks in their order, with Busy and Fatal writing `res` and `pc` alone, and a race
naming the lowest owned address (R117, R118, R119, R120, 20_memory R53, R54). -/
def Obligations.ArmChecksInOrder : Prop :=
  ∀ (e : Ep) (size : BitVec 19) (buf tmo : Word) (s : State),
    ArmChecks (.inTransfer e size buf tmo) s .inn ((s.iep.get e).usbaep = true) True ((s.din.get e).status = .armed)
      (InLimit s e size.toNat) buf.toNat size.toNat ∧
    ArmChecks (.outTransfer e size buf tmo) s .out ((s.oep.get e).usbaep = true) True ((s.dout.get e).status = .armed)
      (fun _ => False) buf.toNat size.toNat ∧
    ArmChecks (.setupTransfer e size buf tmo) s .out ((s.oep.get e).usbaep = true) ((s.oep.get e).eptyp = .control)
      ((s.dout.get e).status = .armed) (fun _ => False) buf.toNat size.toNat

/-- IN_TRANSFER past its checks: the descriptor, the bank, and either the FIFO-empty mask or, on an isochronous endpoint,
the seed of the first packet; then the task waits (R120). -/
def Obligations.InTransferArms : Prop :=
  ∀ (e : Ep) (size : BitVec 19) (buf tmo : Word) (s : State),
    ArmPasses s .inn ((s.iep.get e).usbaep = true) True ((s.din.get e).status = .armed) (InLimit s e size.toNat)
      buf.toNat size.toNat →
    ∃ t, exec (.inTransfer e size buf tmo) s = .next t ∧ Waits .inn e tmo s t ∧
      (t.iep.get e).pktcnt.toNat = packetCount size.toNat (mpsIn s e) ∧ SameBut e s.din t.din ∧ SameBut e s.iep t.iep ∧
      ((s.iep.get e).eptyp ≠ .isochronous →
        t.din.get e = ⟨.armed, buf, size.setWidth 32, 0⟩ ∧
        t.iep.get e = { s.iep.get e with
          xfrsiz := size, pktcnt := (t.iep.get e).pktcnt, nak := false, epena := true } ∧
        t.core = { s.core with txfem := s.core.txfem.set e true } ∧
        OnlyChanges [.din, .iep, .core, .tasks] s t) ∧
      ((s.iep.get e).eptyp = .isochronous →
        let n := min size.toNat (4 * ((s.core.txfd.get e).toNat - (s.txq.get e).length))
        t.din.get e = ⟨.armed, buf, size.setWidth 32, BitVec.ofNat 32 n⟩ ∧
        t.iep.get e = { s.iep.get e with
          xfrsiz := size, pktcnt := (t.iep.get e).pktcnt, mcnt := 1, nak := false, epena := true } ∧
        (∃ ws, t.txq.get e = s.txq.get e ++ ws ∧ Carries ws n fun i => s.mem.readByte (buf.toNat + i)) ∧
        SameBut e s.txq t.txq ∧ OnlyChanges [.din, .iep, .txq, .tasks] s t)

/-- OUT_TRANSFER and SETUP_TRANSFER past their checks: NAK is cleared and the endpoint enabled; OUT programs the clamped
packet count and size (R121), SETUP the setup packet count in place of PKTCNT, which is unchanged (R122). -/
def Obligations.OutAndSetupTransferArms : Prop :=
  (∀ (e : Ep) (size : BitVec 19) (buf tmo : Word) (s : State),
     ArmPasses s .out ((s.oep.get e).usbaep = true) True ((s.dout.get e).status = .armed) (fun _ => False)
       buf.toNat size.toNat →
     let pc := min (packetCount size.toNat (mpsOut s e)) (s.cfg.pktcntMaxOut e)
     ∃ t, exec (.outTransfer e size buf tmo) s = .next t ∧ Waits .out e tmo s t ∧
       t.dout.get e = ⟨.armed, buf, size.setWidth 32, 0⟩ ∧ SameBut e s.dout t.dout ∧
       t.oep.get e = { s.oep.get e with
         pktcnt := (t.oep.get e).pktcnt, xfrsiz := (t.oep.get e).xfrsiz, nak := false, epena := true } ∧
       (t.oep.get e).pktcnt.toNat = pc ∧ (t.oep.get e).xfrsiz.toNat = min (pc * mpsOut s e) (s.cfg.xfrsizMax e) ∧
       SameBut e s.oep t.oep ∧ OnlyChanges [.dout, .oep, .tasks] s t) ∧
  (∀ (e : Ep) (size : BitVec 19) (buf tmo : Word) (s : State),
     ArmPasses s .out ((s.oep.get e).usbaep = true) ((s.oep.get e).eptyp = .control) ((s.dout.get e).status = .armed)
       (fun _ => False) buf.toNat size.toNat →
     let sc := min (packetCount size.toNat (mpsOut s e)) s.cfg.stupcntMax.toNat
     ∃ t, exec (.setupTransfer e size buf tmo) s = .next t ∧ Waits .out e tmo s t ∧
       t.dout.get e = ⟨.armed, buf, size.setWidth 32, 0⟩ ∧ SameBut e s.dout t.dout ∧
       t.oep.get e = { s.oep.get e with
         stupcnt := (t.oep.get e).stupcnt, xfrsiz := (t.oep.get e).xfrsiz, nak := false, epena := true } ∧
       (t.oep.get e).stupcnt.toNat = sc ∧ (t.oep.get e).xfrsiz.toNat = min (sc * mpsOut s e) (s.cfg.xfrsizMax e) ∧
       SameBut e s.oep t.oep ∧ OnlyChanges [.dout, .oep, .tasks] s t)

/-- The elapsed time is `now - t0` on CLOCK_BITS bits (00_scope R13). A waiting task's turn: a terminal status is returned
and the descriptor goes back to Idle; an Armed one yields until the elapsed time exceeds the budget, and then the endpoint
is disabled, an IN FIFO flushed and Timeout returned (R123, R124). That an Idle one does the same is read from
45_bus_agent R147 and 92 D9 (DEDUCED, log 18), and that the task is Done at once after its last command, where R123 writes
Ready, from 10_state R46 (DEDUCED, log 25). -/
def Obligations.PollOutcomes : Prop :=
  (∀ (cfg : Config) (now t0 : Nat), elapsed cfg now t0 < 2 ^ cfg.clockBits ∧
    (t0 + elapsed cfg now t0) % 2 ^ cfg.clockBits = now % 2 ^ cfg.clockBits) ∧
  ∀ (s : State) (j : Nat) (k : Machine.Task) (dir : Dir) (e : Ep) (t0 : Nat) (tmo : Word),
    (nextTurn s).move = .task j → s.tasks[j]? = some k → k.phase = .waiting dir e t0 tmo →
    let d := descriptor s dir e
    let turnParts := [Part.cur, Part.draws, Part.sched]
    let ends := fun (v : Word) (parts : List Part) (t : State) =>
      Completed j (some v) s t ∧ descriptor t dir e = { d with status := .idle } ∧
      SameBut e s.din t.din ∧ SameBut e s.dout t.dout ∧
      OnlyChanges (turnParts ++ [if dir = .inn then .din else .dout, .tasks] ++ parts) s t
    (∀ n, d.status = .complete n → ∃ t, step s = .next t ∧ ends n [] t) ∧
    (d.status = .failed .reset → ∃ t, step s = .next t ∧ ends (-3) [] t) ∧
    (d.status = .armed ∨ d.status = .idle → elapsed s.cfg s.now t0 ≤ tmo.toNat →
      ∃ t, step s = .next t ∧ OnlyChanges turnParts s t) ∧
    (d.status = .armed ∨ d.status = .idle → tmo.toNat < elapsed s.cfg s.now t0 → dir = .inn → ∃ t, step s = .next t ∧
      t.iep.get e = { s.iep.get e with epena := false, nak := true } ∧ t.txq.get e = [] ∧
      SameBut e s.iep t.iep ∧ SameBut e s.txq t.txq ∧ ends (-2) [.iep, .txq] t) ∧
    (d.status = .armed ∨ d.status = .idle → tmo.toNat < elapsed s.cfg s.now t0 → dir = .out → ∃ t, step s = .next t ∧
      t.oep.get e = { s.oep.get e with epena := false, nak := true } ∧ SameBut e s.oep t.oep ∧ ends (-2) [.oep] t)

/-- A waiting task is left alone by every step but its own, and leaves its wait only by a poll that sees a terminal status or
an expired budget (R127, R114), with the result and the pc of R123; that its phase is then Done where no command is left is
read from 10_state R46 (DEDUCED, log 25), and that a poll of Idle past its budget is a timeout from 45_bus_agent R147
(DEDUCED, log 18). -/
def Obligations.WaitEndsOnlyByPoll : Prop :=
  ∀ (s t : State) (j : Nat) (k : Machine.Task), s.tasks[j]? = some k → step s = .next t →
    ((nextTurn s).move ≠ .task j → t.tasks[j]? = some k) ∧
    ∀ dir e t0 tmo, k.phase = .waiting dir e t0 tmo →
      t.tasks[j]? = some k ∨
      ∃ v, t.tasks[j]? = some (k.next (some v)) ∧
        ((descriptor s dir e).status = .complete v ∨ ((descriptor s dir e).status = .failed .reset ∧ v = -3) ∨
          (((descriptor s dir e).status = .armed ∨ (descriptor s dir e).status = .idle) ∧
            tmo.toNat < elapsed s.cfg s.now t0 ∧ v = -2))

/-- In a fair run the dispatcher, once `inited`, always has a step and keeps taking steps (R147, R179), and every waiting
caller ends, by a poll that sees a terminal status or an expired budget, where its turns come before the clock has come
round past its budget: weak fairness alone does not bound the ticks between two polls (log 1). A poll of Idle times out too
(DEDUCED, log 18), and the phase after the last command is Done at once (log 25). -/
def Obligations.FairRunsEndEveryWait : Prop :=
  ∀ (r : Nat → State) (us : Nat → Turn), IsRun r us → Fair r us →
    (∀ n, (r n).inited = true → ∀ m, n ≤ m →
      HasStep (r m) .dispatcher ∧ ∃ p, m ≤ p ∧ (us p).move = .dispatch) ∧
    (∀ n j k dir e t0 tmo, (r n).tasks[j]? = some k → k.phase = .waiting dir e t0 tmo →
      TurnsWithin us j (clockPeriod (r n).cfg - (tmo.toNat + 1)) →
      ∃ m v, n ≤ m ∧ (us m).move = .task j ∧ (r m).tasks[j]? = some k ∧ (r (m + 1)).tasks[j]? = some (k.next (some v)) ∧
        ((descriptor (r m) dir e).status = .complete v ∨ ((descriptor (r m) dir e).status = .failed .reset ∧ v = -3) ∨
          (((descriptor (r m) dir e).status = .armed ∨ (descriptor (r m) dir e).status = .idle) ∧
            tmo.toNat < elapsed (r m).cfg (r m).now t0 ∧ v = -2)))

/-- The five direct operations write their field, emit where the rule says so, and touch nothing else (R128 to R132). -/
def Obligations.DirectOperations : Prop :=
  ∀ (e : Ep) (addr : BitVec 7) (s : State),
    (s.inited = false → ∀ i ∈ [Instr.setDeviceAddress addr, .stallInEp e, .stallOutEp e, .disableInEp e, .disableOutEp e],
      Refuses i .notInited s) ∧
    (s.inited = true →
      (∃ t, exec (.setDeviceAddress addr) s = .next t ∧ t.core = { s.core with dad := addr } ∧
        t.events = s.events ++ [.addressAssigned addr] ∧ Completed s.cur none s t ∧
        OnlyChanges [.core, .events, .tasks] s t) ∧
      (∃ t, exec (.stallInEp e) s = .next t ∧ t.iep.get e = { s.iep.get e with stall := true } ∧ SameBut e s.iep t.iep ∧
        Completed s.cur none s t ∧ OnlyChanges [.iep, .tasks] s t) ∧
      (∃ t, exec (.stallOutEp e) s = .next t ∧ t.oep.get e = { s.oep.get e with stall := true } ∧ SameBut e s.oep t.oep ∧
        Completed s.cur none s t ∧ OnlyChanges [.oep, .tasks] s t) ∧
      (∃ t, exec (.disableInEp e) s = .next t ∧ t.iep.get e = { s.iep.get e with epena := false, nak := true } ∧
        SameBut e s.iep t.iep ∧ Completed s.cur none s t ∧ OnlyChanges [.iep, .tasks] s t) ∧
      (∃ t, exec (.disableOutEp e) s = .next t ∧ t.oep.get e = { s.oep.get e with epena := false, nak := true } ∧
        SameBut e s.oep t.oep ∧ Completed s.cur none s t ∧ OnlyChanges [.oep, .tasks] s t))

/-! ## FIFO marshaling (40_fifo_marshaling) -/

/-- READ_PACKET pops ceil(size / 4) words and writes exactly the bytes of `[dst, dst + size)`; where the FIFO runs out it
has written what it popped and the fault is recorded (R92, log 10); a range that leaves the memory stops the machine
(log 13). DUMP_PACKET pops ceil(size / 4) words and touches nothing else; where the FIFO runs out the fault is recorded
(R94). -/
def Obligations.ReadAndDumpPacketEffect : Prop :=
  (∀ (dst : Word) (size : Nat) (s : State), MemOk s →
     let i := Instr.readPacket dst size
     let written := fun (t : State) => ∀ n, n < size → ∀ w, s.rxq[n / 4]? = some w →
       t.mem.readByte (dst.toNat + n) = byteAt w (n % 4)
     (dst.toNat + size ≤ memBytes s.cfg → wordsFor size ≤ s.rxq.length → ∃ t, exec i s = .next t ∧
       t.rxq = s.rxq.drop (wordsFor size) ∧ written t ∧ SameOutside dst.toNat size s t ∧
       OnlyChanges [.rxq, .mem] s t) ∧
     (dst.toNat + size ≤ memBytes s.cfg → s.rxq.length < wordsFor size → ∃ t, exec i s = .next t ∧
       t.rxq = [] ∧ t.fault = some (s.fault.getD .rxUnderflow) ∧ written t ∧
       SameOutside dst.toNat (min size (4 * s.rxq.length)) s t ∧ OnlyChanges [.rxq, .mem, .fault] s t) ∧
     (memBytes s.cfg < dst.toNat + size → exec i s = .fault .addressSpace)) ∧
  (∀ (size : Nat) (s : State),
     (wordsFor size ≤ s.rxq.length → ∃ t, exec (.dumpPacket size) s = .next t ∧ t.rxq = s.rxq.drop (wordsFor size) ∧
       OnlyChanges [.rxq] s t) ∧
     (s.rxq.length < wordsFor size → ∃ t, exec (.dumpPacket size) s = .next t ∧ t.rxq = [] ∧
       t.fault = some (s.fault.getD .rxUnderflow) ∧ OnlyChanges [.rxq, .fault] s t))

/-- WRITE_PACKET pushes the words of the first min(size, available) bytes and answers that count (R93); a range that
leaves the memory stops the machine (log 13). -/
def Obligations.WritePacketEffect : Prop :=
  ∀ (e : Ep) (src : Word) (size : Nat) (s : State),
    let n := min size (4 * ((s.core.txfd.get e).toNat - (s.txq.get e).length))
    (src.toNat + n ≤ memBytes s.cfg → ∃ t ws, exec (.writePacket e src size) s = .next t ∧
      writePacket e src.toNat size s = .ok (n, t) ∧ t.txq.get e = s.txq.get e ++ ws ∧
      (Carries ws n fun i => s.mem.readByte (src.toNat + i)) ∧ SameBut e s.txq t.txq ∧ OnlyChanges [.txq] s t) ∧
    (memBytes s.cfg < src.toNat + n → exec (.writePacket e src size) s = .fault .addressSpace)

/-! ## The dispatcher's services (42_bus_event_handler) -/

/-- The Reset service: FIFOs flushed, endpoints disabled, Armed descriptors failed and the others kept, DAD and the mask
restored, one Reset emitted, every configuration kept (R106, 70_reset_and_hazards R167). -/
def Obligations.ResetServiceEffect : Prop :=
  ∀ s : State, ∃ t, exec .svcUsbrst s = .next t ∧ t.rxq = [] ∧ t.busActive = false ∧ t.events = s.events ++ [.reset] ∧
    t.core = { s.core with txfem := .all false, dad := 0, gintmsk := 0x803C3010, usbrst := false } ∧
    (∀ e, t.txq.get e = [] ∧ t.setupPending.get e = false ∧
      t.iep.get e = { s.iep.get e with epena := false, nak := true, xfrc := false } ∧
      t.oep.get e = { s.oep.get e with epena := false, nak := true, xfrc := false, stup := false } ∧
      ((s.din.get e).status = .armed → t.din.get e = { s.din.get e with status := .failed .reset }) ∧
      ((s.din.get e).status ≠ .armed → t.din.get e = s.din.get e) ∧
      ((s.dout.get e).status = .armed → t.dout.get e = { s.dout.get e with status := .failed .reset }) ∧
      ((s.dout.get e).status ≠ .armed → t.dout.get e = s.dout.get e)) ∧
    OnlyChanges [.core, .iep, .oep, .rxq, .txq, .din, .dout, .busActive, .events, .setupPending] s t

/-- EnumerationDone and Wake write just their fields, and neither emits (R107, R113). -/
def Obligations.EnumerationDoneAndWake : Prop :=
  ∀ s : State,
    (∃ t, exec .svcEnumdne s = .next t ∧ t.busActive = true ∧
      t.core = { s.core with trdt := s.cfg.trdtFs, ginnak := false, enumdne := false } ∧
      OnlyChanges [.core, .busActive] s t) ∧
    (∃ t, exec .svcWkupint s = .next t ∧ t.core = { s.core with wkupint := false } ∧ OnlyChanges [.core] s t)

/-- IsoIncomplete: each row, alone in its iteration, clears its flag and emits once (log 20); an iteration of the
dispatcher emits one Reset if it sampled USBRST and exactly one IsoIncomplete if it sampled either flag (R106, R112). -/
def Obligations.IsoIncompleteOnce : Prop :=
  (∀ s : State,
    (∃ t, exec .svcIisoixfr s = .next t ∧ t.core = { s.core with iisoixfr := false } ∧
      t.events = s.events ++ [.isoIncomplete] ∧ OnlyChanges [.core, .events] s t) ∧
    (∃ t, exec .svcIpxfr s = .next t ∧ t.core = { s.core with ipxfr := false } ∧
      t.events = s.events ++ [.isoIncomplete] ∧ OnlyChanges [.core, .events] s t)) ∧
  (∀ s t : State, (nextTurn s).move = .dispatch → s.inited = true → Framed s.rxq → step s = .next t →
    t.events = s.events ++ (if (masked s).getLsbD 12 = true then [.reset] else []) ++
      (if (masked s).getLsbD 20 = true ∨ (masked s).getLsbD 21 = true then [.isoIncomplete] else []))

/-- The receive service pops one status word and runs the entry it is; a reserved kind is dumped; an empty FIFO changes
nothing. On whole entries and sound descriptors it completes (R108, R109, 30_encoding R85). -/
def Obligations.ReceiveServiceRunsHeadEntry : Prop :=
  (∀ s : State, s.rxq = [] → exec .svcRxflvl s = .next s) ∧
  (∀ (s : State) (w : Word) (q : List Word), s.rxq = w :: q →
    (∀ i, decodeRx w = .ok i → exec .svcRxflvl s = exec i { s with rxq := q }) ∧
    (∀ r, decodeRx w = .error r →
      exec .svcRxflvl s = exec (.dumpPacket (w.toNat / 2 ^ 4 % 2 ^ 11)) { s with rxq := q })) ∧
  (∀ s : State, Framed s.rxq → DescsOk s → ∃ t, exec .svcRxflvl s = .next t ∧ Framed t.rxq ∧ t.fault = s.fault ∧
    OnlyChanges [.rxq, .mem, .dout, .oep] s t)

/-- A data entry, OUT or SETUP, consumes exactly ceil(bcnt / 4) words: an Armed descriptor with room keeps the bytes that
fit, at its offset, and the rest is dropped; otherwise nothing is kept (R108). -/
def Obligations.DataEntryKeptOrDumped : Prop :=
  ∀ (epnum : BitVec 4) (bcnt : BitVec 11) (dpid : BitVec 2) (frm : BitVec 4) (s : State),
    MemOk s → wordsFor bcnt.toNat ≤ s.rxq.length →
    ∀ i ∈ [Instr.rxOutData epnum bcnt dpid frm, Instr.rxSetupData epnum bcnt dpid frm],
      (∀ e : Ep, epnum.toNat = e.val → (s.dout.get e).status = .armed →
        (s.dout.get e).off.toNat < (s.dout.get e).req.toNat →
        (s.dout.get e).buf.toNat + (s.dout.get e).req.toNat ≤ memBytes s.cfg →
        let d := s.dout.get e
        let n := min bcnt.toNat (d.req.toNat - d.off.toNat)
        ∃ t, exec i s = .next t ∧ t.rxq = s.rxq.drop (wordsFor bcnt.toNat) ∧
          (∀ m, m < n → ∃ w, s.rxq[m / 4]? = some w ∧
            t.mem.readByte (d.buf.toNat + d.off.toNat + m) = byteAt w (m % 4)) ∧
          SameOutside (d.buf.toNat + d.off.toNat) n s t ∧
          t.dout.get e = { d with off := d.off + BitVec.ofNat 32 n } ∧
          (t.dout.get e).off.toNat = d.off.toNat + n ∧ SameBut e s.dout t.dout ∧
          OnlyChanges [.rxq, .mem, .dout] s t) ∧
      ((∀ e : Ep, epnum.toNat = e.val →
          (s.dout.get e).status ≠ .armed ∨ (s.dout.get e).req.toNat ≤ (s.dout.get e).off.toNat) →
        ∃ t, exec i s = .next t ∧ t.rxq = s.rxq.drop (wordsFor bcnt.toNat) ∧ OnlyChanges [.rxq] s t)

/-- The other entries: OUT_XFER_DONE raises XFRC, SETUP_DONE raises STUP, GLOBAL_OUT_NAK nothing, and each drops its words;
no endpoint 8 to 15 exists (R109, 20_memory R60). -/
def Obligations.OtherEntriesRaiseTheirFlag : Prop :=
  ∀ (epnum : BitVec 4) (bcnt : BitVec 11) (dpid : BitVec 2) (frm : BitVec 4) (s : State),
    wordsFor bcnt.toNat ≤ s.rxq.length →
    let drops := fun (t : State) => t.rxq = s.rxq.drop (wordsFor bcnt.toNat)
    (∃ t, exec (.rxGlobalOutNak epnum bcnt dpid frm) s = .next t ∧ drops t ∧ OnlyChanges [.rxq] s t) ∧
    (∃ t, exec (.rxOutXferDone epnum bcnt dpid frm) s = .next t ∧ drops t ∧ OnlyChanges [.rxq, .oep] s t ∧
      ∀ e, t.oep.get e = if epnum.toNat = e.val then { s.oep.get e with xfrc := true } else s.oep.get e) ∧
    (∃ t, exec (.rxSetupDone epnum bcnt dpid frm) s = .next t ∧ drops t ∧ OnlyChanges [.rxq, .oep] s t ∧
      ∀ e, t.oep.get e = if epnum.toNat = e.val then { s.oep.get e with stup := true } else s.oep.get e)

/-- "transfer complete" and "setup phase done", each alone (log 20): where the endpoint is flagged the latched bits are
cleared and an Armed descriptor completes with its offset; one that is not Armed stays as it is; where the endpoint is not
flagged nothing changes (R105, R110, R111). -/
def Obligations.CompletionEvents : Prop :=
  ∀ (e : Ep) (s : State),
    let completes := fun (d d' : Descriptor) =>
      (d.status = .armed → d' = { d with status := .complete d.off }) ∧ (d.status ≠ .armed → d' = d)
    let outDone := fun (t : State) =>
      t.oep.get e = { s.oep.get e with xfrc := false, stup := false } ∧ SameBut e s.oep t.oep ∧
      completes (s.dout.get e) (t.dout.get e) ∧ SameBut e s.dout t.dout ∧ OnlyChanges [.oep, .dout] s t
    let inFlag := s.core.iepm.get e = true ∧ (s.iep.get e).xfrc = true ∧ s.core.diepmskXfrcm = true
    let xfrcFlag := s.core.oepm.get e = true ∧ (s.oep.get e).xfrc = true ∧ s.core.doepmskXfrcm = true
    let stupFlag := s.core.oepm.get e = true ∧ (s.oep.get e).stup = true ∧ s.core.doepmskStupm = true
    (inFlag → ∃ t, exec (.iepXfrc e) s = .next t ∧ t.iep.get e = { s.iep.get e with xfrc := false } ∧
      SameBut e s.iep t.iep ∧ completes (s.din.get e) (t.din.get e) ∧ SameBut e s.din t.din ∧
      OnlyChanges [.iep, .din] s t) ∧
    (¬ inFlag → exec (.iepXfrc e) s = .next s) ∧
    (xfrcFlag → ∃ t, exec (.oepXfrc e) s = .next t ∧ outDone t) ∧ (¬ xfrcFlag → exec (.oepXfrc e) s = .next s) ∧
    (stupFlag → ∃ t, exec (.oepStup e) s = .next t ∧ outDone t) ∧ (¬ stupFlag → exec (.oepStup e) s = .next s)

/-- "FIFO empty", alone (log 20): a flagged endpoint with an Armed descriptor gets the next chunk, and the interrupt is
masked once the offset reaches the request; with none Armed it is masked at once (R105, R110, 40_fifo_marshaling R93). -/
def Obligations.FifoEmptyEvent : Prop :=
  ∀ (e : Ep) (s : State),
    let d := s.din.get e
    let flag := s.core.iepm.get e = true ∧ s.txq.get e = [] ∧ s.core.txfem.get e = true
    let n := min (d.req.toNat - d.off.toNat) (4 * (s.core.txfd.get e).toNat)
    let off := d.off + BitVec.ofNat 32 n
    (flag → d.status = .armed → d.off.toNat ≤ d.req.toNat → d.buf.toNat + d.req.toNat ≤ memBytes s.cfg →
      ∃ t, exec (.iepTxfe e) s = .next t ∧ t.din.get e = { d with off := off } ∧ off.toNat = d.off.toNat + n ∧
        SameBut e s.din t.din ∧
        (Carries (t.txq.get e) n fun i => s.mem.readByte (d.buf.toNat + d.off.toNat + i)) ∧ SameBut e s.txq t.txq ∧
        t.core = { s.core with txfem := if off = d.req then s.core.txfem.set e false else s.core.txfem } ∧
        OnlyChanges [.din, .txq, .core] s t) ∧
    (flag → d.status ≠ .armed → ∃ t, exec (.iepTxfe e) s = .next t ∧
      t.core = { s.core with txfem := s.core.txfem.set e false } ∧ OnlyChanges [.core] s t) ∧
    (¬ flag → exec (.iepTxfe e) s = .next s)

/-- The InEndpoint and OutEndpoint services complete on sound descriptors, and what each leaves at an endpoint is what that
endpoint's own flags decide, "transfer complete" before "FIFO empty" (R104, R110, R111). -/
def Obligations.EndpointServicesPerEndpoint : Prop :=
  (∀ s : State, DescsOk s → ∃ t, exec .svcIepint s = .next t ∧ t.core = { s.core with txfem := t.core.txfem } ∧
    OnlyChanges [.iep, .din, .txq, .core] s t ∧
    ∀ e,
      let d := s.din.get e
      let on := s.core.iepm.get e = true
      let xfrc := on ∧ (s.iep.get e).xfrc = true ∧ s.core.diepmskXfrcm = true
      let empty := on ∧ s.txq.get e = [] ∧ s.core.txfem.get e = true
      let n := min (d.req.toNat - d.off.toNat) (4 * (s.core.txfd.get e).toNat)
      (xfrc → t.iep.get e = { s.iep.get e with xfrc := false }) ∧ (¬ xfrc → t.iep.get e = s.iep.get e) ∧
      (xfrc → d.status = .armed → t.din.get e = { d with status := .complete d.off }) ∧
      (d.status ≠ .armed → t.din.get e = d) ∧
      (¬ xfrc → empty → d.status = .armed → t.din.get e = { d with off := d.off + BitVec.ofNat 32 n } ∧
        (Carries (t.txq.get e) n fun i => s.mem.readByte (d.buf.toNat + d.off.toNat + i)) ∧
        t.core.txfem.get e = decide (d.off + BitVec.ofNat 32 n ≠ d.req)) ∧
      (empty → xfrc ∨ d.status ≠ .armed → t.txq.get e = [] ∧ t.core.txfem.get e = false) ∧
      (¬ empty → t.txq.get e = s.txq.get e ∧ t.core.txfem.get e = s.core.txfem.get e) ∧
      (¬ xfrc → ¬ empty → t.din.get e = d)) ∧
  (∀ s : State, ∃ t, exec .svcOepint s = .next t ∧ OnlyChanges [.oep, .dout] s t ∧
    ∀ e,
      let flag := s.core.oepm.get e = true ∧
        (((s.oep.get e).xfrc = true ∧ s.core.doepmskXfrcm = true) ∨
          ((s.oep.get e).stup = true ∧ s.core.doepmskStupm = true))
      (flag → t.oep.get e = { s.oep.get e with xfrc := false, stup := false }) ∧ (¬ flag → t.oep.get e = s.oep.get e) ∧
      (flag → (s.dout.get e).status = .armed →
        t.dout.get e = { s.dout.get e with status := .complete (s.dout.get e).off }) ∧
      (¬ flag ∨ (s.dout.get e).status ≠ .armed → t.dout.get e = s.dout.get e))

/-- A turn of the dispatcher runs the rows that the masked status, sampled once, selects, in the order of R104; it has no
step before `init` (R102, R103, R104). The two isochronous flags share one service, so both at once are left to
`IsoIncompleteOnce`; an entry cut short, which no run pushes, would end the iteration (log 10). An event that the
iteration's own pop raises waits for a later iteration (R109, 60_exceptions R157; that it waits also where OEPINT was
sampled for another event is DEDUCED, log 29): the second clause says what any iteration without a reset leaves of each OUT
endpoint's events and status, and the first is for the iterations where nothing has to wait. The endpoint services are their
events' rows, endpoint after endpoint (R104, R110, R111, log 20). -/
def Obligations.DispatcherRunsSelectedRows : Prop :=
  (∀ s : State, (nextTurn s).move = .dispatch →
     (s.inited = false → step s = .next (afterTurn s)) ∧
     (s.inited = true → Framed s.rxq →
       ¬ ((masked s).getLsbD iisoixfrBit = true ∧ (masked s).getLsbD ipxfrBit = true) →
       ((masked s).getLsbD usbrstBit = false → (masked s).getLsbD oepintBit = true → ∀ e, ¬ Pops s kindOutXferDone e ∧
         ¬ Pops s kindSetupDone e) →
       step s = execAll (selected (masked s)) (afterTurn s))) ∧
  (∀ s t : State, (nextTurn s).move = .dispatch → s.inited = true → Framed s.rxq →
     (masked s).getLsbD usbrstBit = false → step s = .next t → ∀ e,
     let b := s.oep.get e
     let flag := (masked s).getLsbD oepintBit = true ∧ s.core.oepm.get e = true ∧
       ((b.xfrc = true ∧ s.core.doepmskXfrcm = true) ∨ (b.stup = true ∧ s.core.doepmskStupm = true))
     (¬ flag → (t.dout.get e).status = (s.dout.get e).status ∧
       ((t.oep.get e).xfrc = true ↔ b.xfrc = true ∨ Pops s kindOutXferDone e) ∧
       ((t.oep.get e).stup = true ↔ b.stup = true ∨ Pops s kindSetupDone e)) ∧
     (flag → ((s.dout.get e).status = .armed → (t.dout.get e).status = .complete (t.dout.get e).off) ∧
       ((s.dout.get e).status ≠ .armed → t.dout.get e = s.dout.get e) ∧
       ((t.oep.get e).xfrc = true ↔ b.xfrc = false ∧ Pops s kindOutXferDone e) ∧
       ((t.oep.get e).stup = true ↔ b.stup = false ∧ Pops s kindSetupDone e))) ∧
  (∀ s : State,
     exec .svcIepint s = execAll (allEps.flatMap fun e => [.iepXfrc e, .iepTxfe e]) s ∧
     exec .svcOepint s = execAll (allEps.flatMap fun e => [.oepXfrc e, .oepStup e]) s)

/-- Only an Armed descriptor is written by the dispatcher, which leaves it Armed, Complete with its offset or Failed, and no
other agent writes a terminal status (R105, R114, 60_exceptions R158). -/
def Obligations.TerminalStatusOnlyFromArmed : Prop :=
  ∀ (s t : State) (dir : Dir) (e : Ep), step s = .next t →
    let d := descriptor s dir e
    let d' := descriptor t dir e
    ((nextTurn s).move = .dispatch → d.status ≠ .armed → d' = d) ∧
    ((nextTurn s).move = .dispatch → d.status = .armed →
      d'.buf = d.buf ∧ d'.req = d.req ∧
      (d'.status = .armed ∨ d'.status = .complete d'.off ∨ (d'.status = .failed .reset ∧ d'.off = d.off))) ∧
    ((nextTurn s).move ≠ .dispatch → (∀ n, d'.status = .complete n → d' = d) ∧ (d'.status = .failed .reset → d' = d))

/-! ## The bus agent and the clock (45_bus_agent) -/

/-- A bus move is a step exactly where its preconditions hold (R136, R142 to R145): one that finds no bus, that the endpoint
would NAK or STALL, that finds no room (the OUT_XFER_DONE entry of a packet that ends the transfer included), that is too
long, or whose packet is not whole in its FIFO, is no step (R137): the turn changes nothing but the schedule (log 2). The
room of an OUT packet is R142's, where 70_reset_and_hazards R172 says otherwise of one depth (DEDUCED, log 30). -/
def Obligations.BusMovesNeedTheBus : Prop :=
  ∀ (s : State) (m : BusMove), (nextTurn s).move = .bus m →
    (¬ BusReady s m → ∃ t, step s = .next t ∧ OnlyChanges [.draws, .sched] s t) ∧
    (BusReady s m → step s = .next (busEffect { s with
      draws := (nextTurn s).draws, sched := s.sched.tail,
      turns := if s.sched = [] then s.turns + 1 else s.turns } m))

/-- The outside's read of a task's result (10_state R47, 60_exceptions R151; the move is the model's, log 21): a result that
no command has written is the fault UnwrittenResult, of which the first is kept; a written one, and a task that does not
exist, change nothing but the turn. -/
def Obligations.ObserveNeedsAWrittenResult : Prop :=
  ∀ (s : State) (j : Nat), (nextTurn s).move = .observe j →
    (∀ k, s.tasks[j]? = some k → k.res = none → ∃ t, step s = .next t ∧
      t.fault = some (s.fault.getD (.unwrittenResult j)) ∧ OnlyChanges [.fault, .draws, .sched] s t) ∧
    ((∀ k, s.tasks[j]? = some k → k.res ≠ none) → ∃ t, step s = .next t ∧ OnlyChanges [.draws, .sched] s t)

/-- The bus-level signals latch their flag (R138 to R141), and a tick adds one millisecond and is always enabled (R146). -/
def Obligations.BusSignalsAndTick : Prop :=
  ∀ s : State,
    (∀ m, (nextTurn s).move = .bus m → s.inited = true → s.core.sdis = false → s.core.clkgate = false →
      (m = .reset → ∃ t, step s = .next t ∧ t.core = { s.core with usbrst := true } ∧
        OnlyChanges [.core, .draws, .sched] s t) ∧
      (m = .enumdone → ∃ t, step s = .next t ∧ t.core = { s.core with enumdne := true } ∧
        OnlyChanges [.core, .draws, .sched] s t) ∧
      (m = .iso .inn → ∃ t, step s = .next t ∧ t.core = { s.core with iisoixfr := true } ∧
        OnlyChanges [.core, .draws, .sched] s t) ∧
      (m = .iso .out → ∃ t, step s = .next t ∧ t.core = { s.core with ipxfr := true } ∧
        OnlyChanges [.core, .draws, .sched] s t) ∧
      (m = .wake → ∃ t, step s = .next t ∧ t.core = { s.core with wkupint := true } ∧
        OnlyChanges [.core, .draws, .sched] s t)) ∧
    ((nextTurn s).move = .tick → ∃ t, step s = .next t ∧ t.now = (s.now + 1) % 2 ^ s.cfg.clockBits ∧
      OnlyChanges [.now, .draws, .sched] s t)

/-- An OUT packet whose preconditions hold pushes its status word and its data, counts down, and, where it is the last or a
short one, pushes OUT_XFER_DONE and disables the endpoint (R142; its room is that rule's, log 30). -/
def Obligations.BusOutEffect : Prop :=
  ∀ (s : State) (e : Ep) (data : List Byte) (dpid : BitVec 2) (frm : BitVec 4),
    let b := s.oep.get e
    let ends := b.pktcnt.toNat = 1 ∨ data.length < mpsOut s e
    (nextTurn s).move = .bus (.out e data dpid frm) → s.inited = true → s.core.sdis = false → s.core.clkgate = false →
    b.usbaep = true → b.epena = true → b.nak = false → b.stall = false → 0 < b.pktcnt.toNat →
    data.length ≤ mpsOut s e →
    (¬ ends → s.rxq.length + 1 + wordsFor data.length ≤ s.core.rxfd.toNat) →
    (ends → s.rxq.length + 1 + wordsFor data.length + 1 ≤ s.core.rxfd.toNat) →
    ∃ t w ws last, step s = .next t ∧ t.rxq = s.rxq ++ w :: (ws ++ last) ∧
      w.toNat = e.val + data.length * 2 ^ 4 + dpid.toNat * 2 ^ 15 + 2 * 2 ^ 17 + frm.toNat * 2 ^ 21 ∧
      (Carries ws data.length fun i => data[i]?.getD 0) ∧
      (t.oep.get e).pktcnt.toNat = b.pktcnt.toNat - 1 ∧
      (t.oep.get e).xfrsiz.toNat = b.xfrsiz.toNat - min data.length b.xfrsiz.toNat ∧
      (ends → (∃ x : Word, last = [x] ∧ x.toNat = e.val + 3 * 2 ^ 17 + frm.toNat * 2 ^ 21) ∧
        t.oep.get e = { b with
          pktcnt := (t.oep.get e).pktcnt, xfrsiz := (t.oep.get e).xfrsiz, epena := false, nak := true }) ∧
      (¬ ends → last = [] ∧
        t.oep.get e = { b with pktcnt := (t.oep.get e).pktcnt, xfrsiz := (t.oep.get e).xfrsiz }) ∧
      SameBut e s.oep t.oep ∧ OnlyChanges [.rxq, .oep, .draws, .sched] s t

/-- A SETUP packet is accepted whatever NAK, EPENA and STALL are, and on endpoint 0 it clears both STALL bits; "setup phase
done" follows it (R143, R144, 10_state R44). -/
def Obligations.BusSetupStage : Prop :=
  ∀ (s : State) (e : Ep), s.inited = true → s.core.sdis = false → s.core.clkgate = false →
    (∀ (data : List Byte) (frm : BitVec 4), (nextTurn s).move = .bus (.setup e data frm) →
      (s.oep.get e).usbaep = true → (s.oep.get e).eptyp = .control → data.length = 8 →
      s.rxq.length + 3 ≤ s.core.rxfd.toNat →
      ∃ t w ws, step s = .next t ∧ t.rxq = s.rxq ++ w :: ws ∧
        w.toNat = e.val + 8 * 2 ^ 4 + 6 * 2 ^ 17 + frm.toNat * 2 ^ 21 ∧
        (Carries ws 8 fun i => data[i]?.getD 0) ∧ t.setupPending = s.setupPending.set e true ∧
        (t.oep.get e).stupcnt.toNat = (s.oep.get e).stupcnt.toNat - 1 ∧
        (∀ k, t.oep.get k = { s.oep.get k with
          stupcnt := if k = e then (t.oep.get e).stupcnt else (s.oep.get k).stupcnt,
          stall := if e = 0 ∧ k = 0 then false else (s.oep.get k).stall }) ∧
        (∀ k, t.iep.get k = { s.iep.get k with stall := if e = 0 ∧ k = 0 then false else (s.iep.get k).stall }) ∧
        OnlyChanges [.rxq, .iep, .oep, .setupPending, .draws, .sched] s t) ∧
    ((nextTurn s).move = .bus (.setupdone e) → s.setupPending.get e = true →
      s.rxq.length + 1 ≤ s.core.rxfd.toNat →
      ∃ t w, step s = .next t ∧ t.rxq = s.rxq ++ [w] ∧ w.toNat = e.val + 4 * 2 ^ 17 ∧
        t.setupPending = s.setupPending.set e false ∧
        t.oep.get e = { s.oep.get e with epena := false, nak := true } ∧ SameBut e s.oep t.oep ∧
        OnlyChanges [.rxq, .oep, .setupPending, .draws, .sched] s t)

/-- An IN packet that is whole in its FIFO leaves it and is recorded, the counts go down, and the last packet raises XFRC
and disables the endpoint (R145). -/
def Obligations.BusInEffect : Prop :=
  ∀ (s : State) (e : Ep),
    let b := s.iep.get e
    let p := min (mpsIn s e) b.xfrsiz.toNat
    (nextTurn s).move = .bus (.take e) → s.inited = true → s.core.sdis = false → s.core.clkgate = false →
    b.usbaep = true → b.epena = true → b.nak = false → b.stall = false → s.core.ginnak = false → 0 < b.pktcnt.toNat →
    wordsFor p ≤ (s.txq.get e).length →
    ∃ t bytes, step s = .next t ∧ t.busTx = s.busTx ++ [(e, bytes)] ∧ bytes.length = p ∧
      (Carries ((s.txq.get e).take (wordsFor p)) p fun i => bytes[i]?.getD 0) ∧
      t.txq.get e = (s.txq.get e).drop (wordsFor p) ∧ SameBut e s.txq t.txq ∧
      (t.iep.get e).xfrsiz.toNat = b.xfrsiz.toNat - p ∧ (t.iep.get e).pktcnt.toNat = b.pktcnt.toNat - 1 ∧
      (b.pktcnt.toNat = 1 → t.iep.get e = { b with
        xfrsiz := (t.iep.get e).xfrsiz, pktcnt := (t.iep.get e).pktcnt, xfrc := true, epena := false }) ∧
      (b.pktcnt.toNat ≠ 1 → t.iep.get e = { b with
        xfrsiz := (t.iep.get e).xfrsiz, pktcnt := (t.iep.get e).pktcnt }) ∧
      SameBut e s.iep t.iep ∧ OnlyChanges [.txq, .iep, .busTx, .draws, .sched] s t

/-! ## From one end to the other -/

/-- An OUT packet that the host sends into an empty receive FIFO reaches the caller's buffer at the offset, byte for byte
and no byte beyond the request (R142, 42_bus_event_handler R108, 20_memory R56). -/
def Obligations.OutPacketReachesTheBuffer : Prop :=
  ∀ (s : State) (e : Ep) (data : List Byte) (dpid : BitVec 2) (frm : BitVec 4),
    let d := s.dout.get e
    let n := min data.length (d.req.toNat - d.off.toNat)
    MemOk s → s.rxq = [] → busEnabled s (.out e data dpid frm) = true → d.status = .armed →
    d.off.toNat < d.req.toNat → d.buf.toNat + d.req.toNat ≤ memBytes s.cfg →
    ∃ t, exec .svcRxflvl (busEffect s (.out e data dpid frm)) = .next t ∧
      (∀ i, i < n → t.mem.readByte (d.buf.toNat + d.off.toNat + i) = data[i]?.getD 0) ∧
      SameOutside (d.buf.toNat + d.off.toNat) n s t ∧ (t.dout.get e).status = .armed ∧
      (t.dout.get e).off.toNat = d.off.toNat + n ∧ t.rxq.length ≤ 1 ∧ t.fault = s.fault

/-- A one-packet IN transfer whose FIFO holds it sends exactly the caller's bytes: FIFO-empty pushes them, and the packet
that the host then takes has them in order (R110, R145, 40_fifo_marshaling R93). -/
def Obligations.InPacketCarriesTheBuffer : Prop :=
  ∀ (s : State) (e : Ep),
    let d := s.din.get e
    let b := s.iep.get e
    s.core.iepm.get e = true → s.txq.get e = [] → s.core.txfem.get e = true → d.status = .armed → d.off = 0 →
    d.buf.toNat + d.req.toNat ≤ memBytes s.cfg → d.req.toNat ≤ mpsIn s e → d.req.toNat ≤ 4 * (s.core.txfd.get e).toNat →
    b.xfrsiz.toNat = d.req.toNat → 0 < b.pktcnt.toNat → b.usbaep = true → b.epena = true → b.nak = false →
    b.stall = false → s.core.ginnak = false → s.inited = true → s.core.sdis = false → s.core.clkgate = false →
    ∃ t, exec (.iepTxfe e) s = .next t ∧ t.core.txfem.get e = false ∧ (t.din.get e).off = d.req ∧
      busEnabled t (.take e) = true ∧ (busEffect t (.take e)).txq.get e = [] ∧
      (busEffect t (.take e)).busTx = s.busTx ++ [(e, s.mem.readBytes d.buf.toNat d.req.toNat)]

/-! ## Invariants: every step keeps them, from every state that has them -/

/-- The state right after reset meets every invariant below. -/
def Obligations.ResetMeetsTheInvariants : Prop := Inv State.reset ∧ WaitedNotIdle State.reset

/-- The values that 70_reset_and_hazards R165 gives at power-on, for every launch: the parameters, the command lists, the
clock's draw and the memory. -/
def Obligations.PowerOnValues : Prop :=
  ∀ (cfg : Config) (progs : List (List Word)) (now0 : Nat) (mem : Memory),
    let s := State.powerOn cfg progs now0 mem
    s.inited = false ∧ s.events = [] ∧ s.busTx = [] ∧ (∀ e, s.setupPending.get e = false) ∧
    s.tasks.length = progs.length ∧
    (∀ (j : Nat) (k : Machine.Task), s.tasks[j]? = some k →
      progs[j]? = some k.prog ∧ k.pc = 0 ∧ k.phase = .ready ∧ k.res = none) ∧
    s.fault = none ∧ s.refused = false ∧ s.now = now0 % 2 ^ cfg.clockBits ∧ (∀ a, s.mem.readByte a = mem.readByte a)

/-- The FIFO RAM: no step breaks the allocation of 20_memory R55, and no FIFO ever holds more than its depth (10_state
R37, R38). -/
def Obligations.FifoRamKept : Prop :=
  (∀ s t : State, AllocFits s → step s = .next t → AllocFits t) ∧
  (∀ s t : State, FifosFit s → step s = .next t → FifosFit t)

/-- The receive FIFO stays a list of whole entries, and so no pop ever finds it empty (20_memory R61, 60_exceptions
R151). -/
def Obligations.ReceiveFifoStaysFramed : Prop := ∀ s t : State, RxOk s → step s = .next t → RxOk t

/-- Descriptors stay sound, and from sound descriptors a step never stops: no fault and no refusal of the machine (10_state
R41, 20_memory R53, 60_exceptions R151). -/
def Obligations.SoundDescriptorsNeverStop : Prop := ∀ s : State, DescsOk s → ∃ t, step s = .next t ∧ DescsOk t

/-- No two Armed buffers share a byte where one of them is an OUT one (20_memory R54). -/
def Obligations.ArmedBuffersStayApart : Prop := ∀ s t : State, BuffersApart s → step s = .next t → BuffersApart t

/-- The register mapper, the masks and mode bits that only `init` and the Reset service write, endpoint 0's narrow fields
and the clock keep their invariants (10_state R20, R22, R30, R32, R35, R46, R48, 41_endpoint_config R98). -/
def Obligations.RegistersKeepTheirInvariants : Prop :=
  (∀ s t : State, MapperOk s → step s = .next t → MapperOk t) ∧
  (∀ s t : State, BaselineOk s → step s = .next t → BaselineOk t) ∧
  (∀ s t : State, Ep0FieldsOk s → step s = .next t → Ep0FieldsOk t) ∧
  (∀ s t : State, ClockOk s → step s = .next t → ClockOk t)

/-- The buffer memory keeps its canonical form, and a byte that a step changes lies in the buffer of an OUT descriptor that
was Armed, at or after its offset (20_memory R52, R54, R63). -/
def Obligations.OnlyArmedBuffersAreWritten : Prop :=
  ∀ s t : State, MemOk s → step s = .next t →
    MemOk t ∧ ∀ a, t.mem.readByte a ≠ s.mem.readByte a →
      ∃ e, (s.dout.get e).status = .armed ∧ (s.dout.get e).buf.toNat + (s.dout.get e).off.toNat ≤ a ∧
        a < (s.dout.get e).buf.toNat + (s.dout.get e).req.toNat

/-- What no step undoes: `inited`, the first fault, the refused mark, the logs, the parameters and the command lists; and
the clock moves only by a tick (10_state R18, R19, R43, R45, R48, R49, 20_memory R68). -/
def Obligations.StickyAndAppendOnly : Prop :=
  ∀ s t : State, step s = .next t →
    (s.inited = true → t.inited = true) ∧ (∀ f, s.fault = some f → t.fault = some f) ∧
    (s.fault ≠ none → t.final = false) ∧ (s.refused = true → t.refused = true) ∧
    s.events <+: t.events ∧ s.busTx <+: t.busTx ∧ t.cfg = s.cfg ∧
    t.tasks.map Machine.Task.prog = s.tasks.map Machine.Task.prog ∧
    ((nextTurn s).move ≠ .tick → t.now = s.now) ∧
    (∀ (j : Nat) (k k' : Machine.Task), s.tasks[j]? = some k → t.tasks[j]? = some k' →
      (k'.pc = k.pc ∨ k'.pc = k.pc + 1) ∧ (k.phase = .done → k' = k) ∧ (k.res ≠ none → k'.res ≠ none))

/-- Before `init`: no task waits, and a step that is not a successful INIT changes nothing but the tasks, the clock, the
marks and the schedule (10_state R19, 70_reset_and_hazards R165). -/
def Obligations.OnlyInitBringsUp : Prop :=
  ∀ s t : State, QuietBeforeInit s → step s = .next t →
    QuietBeforeInit t ∧
    (s.inited = false → t.inited = false → OnlyChanges [.tasks, .now, .fault, .refused, .cur, .draws, .sched] s t)

/-- Nothing that the spec leaves unspecified at power-on is read before `init` writes it: two states that agree on the rest
take like steps, and once INIT succeeds they are one state (70_reset_and_hazards R165, log 4). -/
def Obligations.UnspecifiedFieldsNeverRead : Prop :=
  ∀ s u : State, PreInitEq s u → QuietBeforeInit s →
    ∃ s' u', step s = .next s' ∧ step u = .next u' ∧ (PreInitEq s' u' ∨ s' = u')

/-- With one caller task, no poll ever sees Idle, and a task that is Done has no command left (43_transfer_api R123, 10_state
R46; with several tasks see log 18). -/
def Obligations.SingleTaskNeverWaitsOnIdle : Prop :=
  (∀ s t : State, WaitedNotIdle s → step s = .next t → WaitedNotIdle t) ∧
  (∀ s t : State, DoneAtEnd s → step s = .next t → DoneAtEnd t)
end

