-- ==== Sys2Proof/Laws/Memory.lean ====
section
/-! SUPPORT. The buffer memory: what a read gives after a write, and that every operation keeps the canonical form. -/

namespace Sys2Proof.Machine

/-- Every listed address of a canonical memory's tail lies above its head. -/
def Memory.above (a : Nat) (m : Memory) : Prop := ∀ c ∈ m, a < c.1

theorem Memory.wf_cons {size a : Nat} {v : Byte} {rest : Memory} :
    Memory.wf size ((a, v) :: rest) = true ↔
      v ≠ unlistedByte ∧ a < size ∧ Memory.above a rest ∧ Memory.wf size rest = true := by
  simp [Memory.wf, Memory.above, and_assoc]

/-- An address below every listed one reads as unlisted. -/
theorem Memory.readByte_of_above {m : Memory} {k : Nat} (h : Memory.above k m) : m.readByte k = unlistedByte := by
  induction m with
  | nil => rfl
  | cons c rest ih =>
    obtain ⟨a, v⟩ := c
    have hk : k < a := h (a, v) (by simp)
    have hne : a ≠ k := by omega
    simp only [Memory.readByte, hne, if_false]
    exact ih fun c hc => h c (by simp [hc])

/-- A write keeps every listed address above a bound that it lies above itself. -/
theorem Memory.above_writeByte {m : Memory} {a k : Nat} {v : Byte} (h : Memory.above a m) (hk : a < k) :
    Memory.above a (m.writeByte k v) := by
  induction m with
  | nil =>
    unfold Memory.writeByte
    split
    · exact h
    · intro c hc; simp at hc; subst hc; exact hk
  | cons c rest ih =>
    obtain ⟨b, x⟩ := c
    have hb : a < b := h (b, x) (by simp)
    have hr : Memory.above a rest := fun c hc => h c (by simp [hc])
    unfold Memory.writeByte
    split
    · split
      · exact h
      · intro c hc
        simp only [List.mem_cons] at hc
        rcases hc with rfl | rfl | hc
        · exact hk
        · exact hb
        · exact hr c hc
    · split
      · split
        · exact hr
        · intro c hc
          simp only [List.mem_cons] at hc
          rcases hc with rfl | hc
          · exact hb
          · exact hr c hc
      · intro c hc
        simp only [List.mem_cons] at hc
        rcases hc with rfl | hc
        · exact hb
        · exact ih hr c hc

/-- No memory has more bytes than a word can address (00_scope R7, ADDR_BITS). -/
theorem memBytes_le (cfg : Config) : memBytes cfg ≤ 2 ^ 32 :=
  Nat.pow_le_pow_right (by decide) (by have := cfg.addrBits.isLt; omega)

/-- A write inside the memory keeps the canonical form. -/
theorem Memory.wf_writeByte {size : Nat} {m : Memory} {k : Nat} {v : Byte} (hm : m.wf size = true) (hk : k < size) :
    (m.writeByte k v).wf size = true := by
  induction m with
  | nil =>
    unfold Memory.writeByte
    split
    · rfl
    · next h => exact Memory.wf_cons.2 ⟨h, hk, fun c hc => by simp at hc, rfl⟩
  | cons c rest ih =>
    obtain ⟨a, x⟩ := c
    obtain ⟨hx, ha, hab, hr⟩ := Memory.wf_cons.1 hm
    unfold Memory.writeByte
    split
    · next hlt =>
      split
      · exact hm
      · next hv =>
        refine Memory.wf_cons.2 ⟨hv, hk, ?_, hm⟩
        intro c hc
        simp only [List.mem_cons] at hc
        rcases hc with rfl | hc
        · exact hlt
        · exact Nat.lt_trans hlt (hab c hc)
    · split
      · split
        · exact hr
        · next hv => exact Memory.wf_cons.2 ⟨hv, ha, hab, hr⟩
      · next h1 h2 =>
        exact Memory.wf_cons.2 ⟨hx, ha, Memory.above_writeByte hab (by omega), ih hr⟩

/-- Writes inside the memory keep the canonical form. -/
theorem Memory.wf_writeBytes {size : Nat} {m : Memory} {a : Nat} {bs : List Byte} (hm : m.wf size = true)
    (h : a + bs.length ≤ size) : (m.writeBytes a bs).wf size = true := by
  induction bs generalizing m a with
  | nil => exact hm
  | cons b bs ih =>
    simp only [List.length_cons] at h
    exact ih (Memory.wf_writeByte hm (by omega)) (by omega)

/-- A read after a write, in a canonical memory. -/
theorem Memory.readByte_writeByte {size : Nat} {m : Memory} (hm : m.wf size = true) (k j : Nat) (v : Byte) :
    (m.writeByte k v).readByte j = if j = k then v else m.readByte j := by
  induction m with
  | nil =>
    by_cases hj : j = k
    · subst hj; unfold Memory.writeByte; split
      · next h => simp [Memory.readByte, h]
      · simp [Memory.readByte]
    · have : k ≠ j := Ne.symm hj
      unfold Memory.writeByte; split <;> simp [Memory.readByte, this]
  | cons c rest ih =>
    obtain ⟨a, x⟩ := c
    obtain ⟨_, _, hab, hr⟩ := Memory.wf_cons.1 hm
    unfold Memory.writeByte
    split
    · next hlt =>
      have habove : Memory.above k ((a, x) :: rest) := by
        intro c hc
        simp only [List.mem_cons] at hc
        rcases hc with rfl | hc
        · exact hlt
        · exact Nat.lt_trans hlt (hab c hc)
      split
      · next hv =>
        by_cases hj : j = k
        · subst hj; rw [Memory.readByte_of_above habove, hv]; simp
        · simp [hj]
      · by_cases hj : j = k
        · subst hj; simp [Memory.readByte]
        · have : k ≠ j := Ne.symm hj
          simp [Memory.readByte, hj, this]
    · split
      · next h1 h2 =>
        subst h2
        split
        · next hv =>
          by_cases hj : j = k
          · subst hj; rw [Memory.readByte_of_above hab, hv]; simp
          · have : k ≠ j := Ne.symm hj
            simp [Memory.readByte, hj, this]
        · by_cases hj : j = k
          · subst hj; simp [Memory.readByte]
          · have : k ≠ j := Ne.symm hj
            simp [Memory.readByte, hj, this]
      · next h1 h2 =>
        by_cases hj : a = j
        · subst hj
          have : ¬ a = k := fun h => h2 h.symm
          simp [Memory.readByte, this]
        · simp only [Memory.readByte, hj, if_false]; exact ih hr

/-- A read after writes, outside the bytes written. -/
theorem Memory.readByte_writeBytes_of_outside {size : Nat} {m : Memory} {a j : Nat} {bs : List Byte} (hm : m.wf size = true)
    (h : a + bs.length ≤ size) (hj : j < a ∨ a + bs.length ≤ j) :
    (m.writeBytes a bs).readByte j = m.readByte j := by
  induction bs generalizing m a with
  | nil => rfl
  | cons b bs ih =>
    simp only [List.length_cons] at h hj
    have hne : j ≠ a := by omega
    rw [Memory.writeBytes, ih (Memory.wf_writeByte hm (by omega)) (by omega) (by omega),
      Memory.readByte_writeByte hm]
    simp [hne]

/-- A read after writes, of a byte written. -/
theorem Memory.readByte_writeBytes_of_inside {size : Nat} {m : Memory} {a i : Nat} {bs : List Byte} (hm : m.wf size = true)
    (h : a + bs.length ≤ size) (hi : i < bs.length) : (m.writeBytes a bs).readByte (a + i) = bs[i] := by
  induction bs generalizing m a i with
  | nil => simp at hi
  | cons b bs ih =>
    simp only [List.length_cons] at h hi
    have hw := Memory.wf_writeByte (v := b) hm (show a < size by omega)
    rw [Memory.writeBytes]
    cases i with
    | zero =>
      rw [Memory.readByte_writeBytes_of_outside hw (by omega) (by omega), Nat.add_zero,
        Memory.readByte_writeByte hm]
      simp
    | succ i =>
      have := ih hw (a := a + 1) (i := i) (by omega) (by omega)
      rw [show a + (i + 1) = a + 1 + i by omega, this]
      simp

@[simp] theorem Memory.readBytes_length (m : Memory) (a n : Nat) : (m.readBytes a n).length = n := by
  induction n generalizing a with
  | zero => rfl
  | succ n ih => simp [Memory.readBytes, ih]

/-- The bytes read are the memory's, one after another. -/
theorem Memory.readBytes_getElem (m : Memory) (a n i : Nat) (h : i < n) :
    (m.readBytes a n)[i]? = some (m.readByte (a + i)) := by
  induction n generalizing a i with
  | zero => omega
  | succ n ih =>
    cases i with
    | zero => simp [Memory.readBytes]
    | succ i => simp [Memory.readBytes, ih (a + 1) i (by omega), Nat.add_comm, Nat.add_left_comm]

end Sys2Proof.Machine
end

