-- ==== Sys2Proof/Laws/State.lean ====
section
/-! SUPPORT. One lemma per field and update of the state, each true by rfl, so that no later proof unfolds a record
update. -/

namespace Sys2Proof.Machine

/-! ## `State.setCore` -/

@[simp] theorem State.setCore_cfg (s : State) (c : CoreRegs) : (s.setCore c).cfg = s.cfg := rfl
@[simp] theorem State.setCore_inited (s : State) (c : CoreRegs) : (s.setCore c).inited = s.inited := rfl
@[simp] theorem State.setCore_core (s : State) (c : CoreRegs) : (s.setCore c).core = c := rfl
@[simp] theorem State.setCore_iep (s : State) (c : CoreRegs) : (s.setCore c).iep = s.iep := rfl
@[simp] theorem State.setCore_oep (s : State) (c : CoreRegs) : (s.setCore c).oep = s.oep := rfl
@[simp] theorem State.setCore_rxq (s : State) (c : CoreRegs) : (s.setCore c).rxq = s.rxq := rfl
@[simp] theorem State.setCore_txq (s : State) (c : CoreRegs) : (s.setCore c).txq = s.txq := rfl
@[simp] theorem State.setCore_din (s : State) (c : CoreRegs) : (s.setCore c).din = s.din := rfl
@[simp] theorem State.setCore_dout (s : State) (c : CoreRegs) : (s.setCore c).dout = s.dout := rfl
@[simp] theorem State.setCore_busActive (s : State) (c : CoreRegs) : (s.setCore c).busActive = s.busActive := rfl
@[simp] theorem State.setCore_events (s : State) (c : CoreRegs) : (s.setCore c).events = s.events := rfl
@[simp] theorem State.setCore_setupPending (s : State) (c : CoreRegs) : (s.setCore c).setupPending = s.setupPending := rfl
@[simp] theorem State.setCore_busTx (s : State) (c : CoreRegs) : (s.setCore c).busTx = s.busTx := rfl
@[simp] theorem State.setCore_tasks (s : State) (c : CoreRegs) : (s.setCore c).tasks = s.tasks := rfl
@[simp] theorem State.setCore_now (s : State) (c : CoreRegs) : (s.setCore c).now = s.now := rfl
@[simp] theorem State.setCore_mem (s : State) (c : CoreRegs) : (s.setCore c).mem = s.mem := rfl
@[simp] theorem State.setCore_fault (s : State) (c : CoreRegs) : (s.setCore c).fault = s.fault := rfl
@[simp] theorem State.setCore_refused (s : State) (c : CoreRegs) : (s.setCore c).refused = s.refused := rfl
@[simp] theorem State.setCore_refusedBy (s : State) (c : CoreRegs) : (s.setCore c).refusedBy = s.refusedBy := rfl
@[simp] theorem State.setCore_cur (s : State) (c : CoreRegs) : (s.setCore c).cur = s.cur := rfl
@[simp] theorem State.setCore_draws (s : State) (c : CoreRegs) : (s.setCore c).draws = s.draws := rfl
@[simp] theorem State.setCore_sched (s : State) (c : CoreRegs) : (s.setCore c).sched = s.sched := rfl
@[simp] theorem State.setCore_turns (s : State) (c : CoreRegs) : (s.setCore c).turns = s.turns := rfl

/-! ## `State.setIep` -/

@[simp] theorem State.setIep_cfg (s : State) (e : Ep) (b : InBank) : (s.setIep e b).cfg = s.cfg := rfl
@[simp] theorem State.setIep_inited (s : State) (e : Ep) (b : InBank) : (s.setIep e b).inited = s.inited := rfl
@[simp] theorem State.setIep_core (s : State) (e : Ep) (b : InBank) : (s.setIep e b).core = s.core := rfl
@[simp] theorem State.setIep_iep (s : State) (e : Ep) (b : InBank) : (s.setIep e b).iep = s.iep.set e b := rfl
@[simp] theorem State.setIep_oep (s : State) (e : Ep) (b : InBank) : (s.setIep e b).oep = s.oep := rfl
@[simp] theorem State.setIep_rxq (s : State) (e : Ep) (b : InBank) : (s.setIep e b).rxq = s.rxq := rfl
@[simp] theorem State.setIep_txq (s : State) (e : Ep) (b : InBank) : (s.setIep e b).txq = s.txq := rfl
@[simp] theorem State.setIep_din (s : State) (e : Ep) (b : InBank) : (s.setIep e b).din = s.din := rfl
@[simp] theorem State.setIep_dout (s : State) (e : Ep) (b : InBank) : (s.setIep e b).dout = s.dout := rfl
@[simp] theorem State.setIep_busActive (s : State) (e : Ep) (b : InBank) : (s.setIep e b).busActive = s.busActive := rfl
@[simp] theorem State.setIep_events (s : State) (e : Ep) (b : InBank) : (s.setIep e b).events = s.events := rfl
@[simp] theorem State.setIep_setupPending (s : State) (e : Ep) (b : InBank) : (s.setIep e b).setupPending = s.setupPending := rfl
@[simp] theorem State.setIep_busTx (s : State) (e : Ep) (b : InBank) : (s.setIep e b).busTx = s.busTx := rfl
@[simp] theorem State.setIep_tasks (s : State) (e : Ep) (b : InBank) : (s.setIep e b).tasks = s.tasks := rfl
@[simp] theorem State.setIep_now (s : State) (e : Ep) (b : InBank) : (s.setIep e b).now = s.now := rfl
@[simp] theorem State.setIep_mem (s : State) (e : Ep) (b : InBank) : (s.setIep e b).mem = s.mem := rfl
@[simp] theorem State.setIep_fault (s : State) (e : Ep) (b : InBank) : (s.setIep e b).fault = s.fault := rfl
@[simp] theorem State.setIep_refused (s : State) (e : Ep) (b : InBank) : (s.setIep e b).refused = s.refused := rfl
@[simp] theorem State.setIep_refusedBy (s : State) (e : Ep) (b : InBank) : (s.setIep e b).refusedBy = s.refusedBy := rfl
@[simp] theorem State.setIep_cur (s : State) (e : Ep) (b : InBank) : (s.setIep e b).cur = s.cur := rfl
@[simp] theorem State.setIep_draws (s : State) (e : Ep) (b : InBank) : (s.setIep e b).draws = s.draws := rfl
@[simp] theorem State.setIep_sched (s : State) (e : Ep) (b : InBank) : (s.setIep e b).sched = s.sched := rfl
@[simp] theorem State.setIep_turns (s : State) (e : Ep) (b : InBank) : (s.setIep e b).turns = s.turns := rfl

/-! ## `State.setOep` -/

@[simp] theorem State.setOep_cfg (s : State) (e : Ep) (b : OutBank) : (s.setOep e b).cfg = s.cfg := rfl
@[simp] theorem State.setOep_inited (s : State) (e : Ep) (b : OutBank) : (s.setOep e b).inited = s.inited := rfl
@[simp] theorem State.setOep_core (s : State) (e : Ep) (b : OutBank) : (s.setOep e b).core = s.core := rfl
@[simp] theorem State.setOep_iep (s : State) (e : Ep) (b : OutBank) : (s.setOep e b).iep = s.iep := rfl
@[simp] theorem State.setOep_oep (s : State) (e : Ep) (b : OutBank) : (s.setOep e b).oep = s.oep.set e b := rfl
@[simp] theorem State.setOep_rxq (s : State) (e : Ep) (b : OutBank) : (s.setOep e b).rxq = s.rxq := rfl
@[simp] theorem State.setOep_txq (s : State) (e : Ep) (b : OutBank) : (s.setOep e b).txq = s.txq := rfl
@[simp] theorem State.setOep_din (s : State) (e : Ep) (b : OutBank) : (s.setOep e b).din = s.din := rfl
@[simp] theorem State.setOep_dout (s : State) (e : Ep) (b : OutBank) : (s.setOep e b).dout = s.dout := rfl
@[simp] theorem State.setOep_busActive (s : State) (e : Ep) (b : OutBank) : (s.setOep e b).busActive = s.busActive := rfl
@[simp] theorem State.setOep_events (s : State) (e : Ep) (b : OutBank) : (s.setOep e b).events = s.events := rfl
@[simp] theorem State.setOep_setupPending (s : State) (e : Ep) (b : OutBank) : (s.setOep e b).setupPending = s.setupPending := rfl
@[simp] theorem State.setOep_busTx (s : State) (e : Ep) (b : OutBank) : (s.setOep e b).busTx = s.busTx := rfl
@[simp] theorem State.setOep_tasks (s : State) (e : Ep) (b : OutBank) : (s.setOep e b).tasks = s.tasks := rfl
@[simp] theorem State.setOep_now (s : State) (e : Ep) (b : OutBank) : (s.setOep e b).now = s.now := rfl
@[simp] theorem State.setOep_mem (s : State) (e : Ep) (b : OutBank) : (s.setOep e b).mem = s.mem := rfl
@[simp] theorem State.setOep_fault (s : State) (e : Ep) (b : OutBank) : (s.setOep e b).fault = s.fault := rfl
@[simp] theorem State.setOep_refused (s : State) (e : Ep) (b : OutBank) : (s.setOep e b).refused = s.refused := rfl
@[simp] theorem State.setOep_refusedBy (s : State) (e : Ep) (b : OutBank) : (s.setOep e b).refusedBy = s.refusedBy := rfl
@[simp] theorem State.setOep_cur (s : State) (e : Ep) (b : OutBank) : (s.setOep e b).cur = s.cur := rfl
@[simp] theorem State.setOep_draws (s : State) (e : Ep) (b : OutBank) : (s.setOep e b).draws = s.draws := rfl
@[simp] theorem State.setOep_sched (s : State) (e : Ep) (b : OutBank) : (s.setOep e b).sched = s.sched := rfl
@[simp] theorem State.setOep_turns (s : State) (e : Ep) (b : OutBank) : (s.setOep e b).turns = s.turns := rfl

/-! ## `State.setRxq` -/

@[simp] theorem State.setRxq_cfg (s : State) (q : List Word) : (s.setRxq q).cfg = s.cfg := rfl
@[simp] theorem State.setRxq_inited (s : State) (q : List Word) : (s.setRxq q).inited = s.inited := rfl
@[simp] theorem State.setRxq_core (s : State) (q : List Word) : (s.setRxq q).core = s.core := rfl
@[simp] theorem State.setRxq_iep (s : State) (q : List Word) : (s.setRxq q).iep = s.iep := rfl
@[simp] theorem State.setRxq_oep (s : State) (q : List Word) : (s.setRxq q).oep = s.oep := rfl
@[simp] theorem State.setRxq_rxq (s : State) (q : List Word) : (s.setRxq q).rxq = q := rfl
@[simp] theorem State.setRxq_txq (s : State) (q : List Word) : (s.setRxq q).txq = s.txq := rfl
@[simp] theorem State.setRxq_din (s : State) (q : List Word) : (s.setRxq q).din = s.din := rfl
@[simp] theorem State.setRxq_dout (s : State) (q : List Word) : (s.setRxq q).dout = s.dout := rfl
@[simp] theorem State.setRxq_busActive (s : State) (q : List Word) : (s.setRxq q).busActive = s.busActive := rfl
@[simp] theorem State.setRxq_events (s : State) (q : List Word) : (s.setRxq q).events = s.events := rfl
@[simp] theorem State.setRxq_setupPending (s : State) (q : List Word) : (s.setRxq q).setupPending = s.setupPending := rfl
@[simp] theorem State.setRxq_busTx (s : State) (q : List Word) : (s.setRxq q).busTx = s.busTx := rfl
@[simp] theorem State.setRxq_tasks (s : State) (q : List Word) : (s.setRxq q).tasks = s.tasks := rfl
@[simp] theorem State.setRxq_now (s : State) (q : List Word) : (s.setRxq q).now = s.now := rfl
@[simp] theorem State.setRxq_mem (s : State) (q : List Word) : (s.setRxq q).mem = s.mem := rfl
@[simp] theorem State.setRxq_fault (s : State) (q : List Word) : (s.setRxq q).fault = s.fault := rfl
@[simp] theorem State.setRxq_refused (s : State) (q : List Word) : (s.setRxq q).refused = s.refused := rfl
@[simp] theorem State.setRxq_refusedBy (s : State) (q : List Word) : (s.setRxq q).refusedBy = s.refusedBy := rfl
@[simp] theorem State.setRxq_cur (s : State) (q : List Word) : (s.setRxq q).cur = s.cur := rfl
@[simp] theorem State.setRxq_draws (s : State) (q : List Word) : (s.setRxq q).draws = s.draws := rfl
@[simp] theorem State.setRxq_sched (s : State) (q : List Word) : (s.setRxq q).sched = s.sched := rfl
@[simp] theorem State.setRxq_turns (s : State) (q : List Word) : (s.setRxq q).turns = s.turns := rfl

/-! ## `State.setTxq` -/

@[simp] theorem State.setTxq_cfg (s : State) (e : Ep) (q : List Word) : (s.setTxq e q).cfg = s.cfg := rfl
@[simp] theorem State.setTxq_inited (s : State) (e : Ep) (q : List Word) : (s.setTxq e q).inited = s.inited := rfl
@[simp] theorem State.setTxq_core (s : State) (e : Ep) (q : List Word) : (s.setTxq e q).core = s.core := rfl
@[simp] theorem State.setTxq_iep (s : State) (e : Ep) (q : List Word) : (s.setTxq e q).iep = s.iep := rfl
@[simp] theorem State.setTxq_oep (s : State) (e : Ep) (q : List Word) : (s.setTxq e q).oep = s.oep := rfl
@[simp] theorem State.setTxq_rxq (s : State) (e : Ep) (q : List Word) : (s.setTxq e q).rxq = s.rxq := rfl
@[simp] theorem State.setTxq_txq (s : State) (e : Ep) (q : List Word) : (s.setTxq e q).txq = s.txq.set e q := rfl
@[simp] theorem State.setTxq_din (s : State) (e : Ep) (q : List Word) : (s.setTxq e q).din = s.din := rfl
@[simp] theorem State.setTxq_dout (s : State) (e : Ep) (q : List Word) : (s.setTxq e q).dout = s.dout := rfl
@[simp] theorem State.setTxq_busActive (s : State) (e : Ep) (q : List Word) : (s.setTxq e q).busActive = s.busActive := rfl
@[simp] theorem State.setTxq_events (s : State) (e : Ep) (q : List Word) : (s.setTxq e q).events = s.events := rfl
@[simp] theorem State.setTxq_setupPending (s : State) (e : Ep) (q : List Word) : (s.setTxq e q).setupPending = s.setupPending := rfl
@[simp] theorem State.setTxq_busTx (s : State) (e : Ep) (q : List Word) : (s.setTxq e q).busTx = s.busTx := rfl
@[simp] theorem State.setTxq_tasks (s : State) (e : Ep) (q : List Word) : (s.setTxq e q).tasks = s.tasks := rfl
@[simp] theorem State.setTxq_now (s : State) (e : Ep) (q : List Word) : (s.setTxq e q).now = s.now := rfl
@[simp] theorem State.setTxq_mem (s : State) (e : Ep) (q : List Word) : (s.setTxq e q).mem = s.mem := rfl
@[simp] theorem State.setTxq_fault (s : State) (e : Ep) (q : List Word) : (s.setTxq e q).fault = s.fault := rfl
@[simp] theorem State.setTxq_refused (s : State) (e : Ep) (q : List Word) : (s.setTxq e q).refused = s.refused := rfl
@[simp] theorem State.setTxq_refusedBy (s : State) (e : Ep) (q : List Word) : (s.setTxq e q).refusedBy = s.refusedBy := rfl
@[simp] theorem State.setTxq_cur (s : State) (e : Ep) (q : List Word) : (s.setTxq e q).cur = s.cur := rfl
@[simp] theorem State.setTxq_draws (s : State) (e : Ep) (q : List Word) : (s.setTxq e q).draws = s.draws := rfl
@[simp] theorem State.setTxq_sched (s : State) (e : Ep) (q : List Word) : (s.setTxq e q).sched = s.sched := rfl
@[simp] theorem State.setTxq_turns (s : State) (e : Ep) (q : List Word) : (s.setTxq e q).turns = s.turns := rfl

/-! ## `State.setDin` -/

@[simp] theorem State.setDin_cfg (s : State) (e : Ep) (d : Descriptor) : (s.setDin e d).cfg = s.cfg := rfl
@[simp] theorem State.setDin_inited (s : State) (e : Ep) (d : Descriptor) : (s.setDin e d).inited = s.inited := rfl
@[simp] theorem State.setDin_core (s : State) (e : Ep) (d : Descriptor) : (s.setDin e d).core = s.core := rfl
@[simp] theorem State.setDin_iep (s : State) (e : Ep) (d : Descriptor) : (s.setDin e d).iep = s.iep := rfl
@[simp] theorem State.setDin_oep (s : State) (e : Ep) (d : Descriptor) : (s.setDin e d).oep = s.oep := rfl
@[simp] theorem State.setDin_rxq (s : State) (e : Ep) (d : Descriptor) : (s.setDin e d).rxq = s.rxq := rfl
@[simp] theorem State.setDin_txq (s : State) (e : Ep) (d : Descriptor) : (s.setDin e d).txq = s.txq := rfl
@[simp] theorem State.setDin_din (s : State) (e : Ep) (d : Descriptor) : (s.setDin e d).din = s.din.set e d := rfl
@[simp] theorem State.setDin_dout (s : State) (e : Ep) (d : Descriptor) : (s.setDin e d).dout = s.dout := rfl
@[simp] theorem State.setDin_busActive (s : State) (e : Ep) (d : Descriptor) : (s.setDin e d).busActive = s.busActive := rfl
@[simp] theorem State.setDin_events (s : State) (e : Ep) (d : Descriptor) : (s.setDin e d).events = s.events := rfl
@[simp] theorem State.setDin_setupPending (s : State) (e : Ep) (d : Descriptor) : (s.setDin e d).setupPending = s.setupPending := rfl
@[simp] theorem State.setDin_busTx (s : State) (e : Ep) (d : Descriptor) : (s.setDin e d).busTx = s.busTx := rfl
@[simp] theorem State.setDin_tasks (s : State) (e : Ep) (d : Descriptor) : (s.setDin e d).tasks = s.tasks := rfl
@[simp] theorem State.setDin_now (s : State) (e : Ep) (d : Descriptor) : (s.setDin e d).now = s.now := rfl
@[simp] theorem State.setDin_mem (s : State) (e : Ep) (d : Descriptor) : (s.setDin e d).mem = s.mem := rfl
@[simp] theorem State.setDin_fault (s : State) (e : Ep) (d : Descriptor) : (s.setDin e d).fault = s.fault := rfl
@[simp] theorem State.setDin_refused (s : State) (e : Ep) (d : Descriptor) : (s.setDin e d).refused = s.refused := rfl
@[simp] theorem State.setDin_refusedBy (s : State) (e : Ep) (d : Descriptor) : (s.setDin e d).refusedBy = s.refusedBy := rfl
@[simp] theorem State.setDin_cur (s : State) (e : Ep) (d : Descriptor) : (s.setDin e d).cur = s.cur := rfl
@[simp] theorem State.setDin_draws (s : State) (e : Ep) (d : Descriptor) : (s.setDin e d).draws = s.draws := rfl
@[simp] theorem State.setDin_sched (s : State) (e : Ep) (d : Descriptor) : (s.setDin e d).sched = s.sched := rfl
@[simp] theorem State.setDin_turns (s : State) (e : Ep) (d : Descriptor) : (s.setDin e d).turns = s.turns := rfl

/-! ## `State.setDout` -/

@[simp] theorem State.setDout_cfg (s : State) (e : Ep) (d : Descriptor) : (s.setDout e d).cfg = s.cfg := rfl
@[simp] theorem State.setDout_inited (s : State) (e : Ep) (d : Descriptor) : (s.setDout e d).inited = s.inited := rfl
@[simp] theorem State.setDout_core (s : State) (e : Ep) (d : Descriptor) : (s.setDout e d).core = s.core := rfl
@[simp] theorem State.setDout_iep (s : State) (e : Ep) (d : Descriptor) : (s.setDout e d).iep = s.iep := rfl
@[simp] theorem State.setDout_oep (s : State) (e : Ep) (d : Descriptor) : (s.setDout e d).oep = s.oep := rfl
@[simp] theorem State.setDout_rxq (s : State) (e : Ep) (d : Descriptor) : (s.setDout e d).rxq = s.rxq := rfl
@[simp] theorem State.setDout_txq (s : State) (e : Ep) (d : Descriptor) : (s.setDout e d).txq = s.txq := rfl
@[simp] theorem State.setDout_din (s : State) (e : Ep) (d : Descriptor) : (s.setDout e d).din = s.din := rfl
@[simp] theorem State.setDout_dout (s : State) (e : Ep) (d : Descriptor) : (s.setDout e d).dout = s.dout.set e d := rfl
@[simp] theorem State.setDout_busActive (s : State) (e : Ep) (d : Descriptor) : (s.setDout e d).busActive = s.busActive := rfl
@[simp] theorem State.setDout_events (s : State) (e : Ep) (d : Descriptor) : (s.setDout e d).events = s.events := rfl
@[simp] theorem State.setDout_setupPending (s : State) (e : Ep) (d : Descriptor) : (s.setDout e d).setupPending = s.setupPending := rfl
@[simp] theorem State.setDout_busTx (s : State) (e : Ep) (d : Descriptor) : (s.setDout e d).busTx = s.busTx := rfl
@[simp] theorem State.setDout_tasks (s : State) (e : Ep) (d : Descriptor) : (s.setDout e d).tasks = s.tasks := rfl
@[simp] theorem State.setDout_now (s : State) (e : Ep) (d : Descriptor) : (s.setDout e d).now = s.now := rfl
@[simp] theorem State.setDout_mem (s : State) (e : Ep) (d : Descriptor) : (s.setDout e d).mem = s.mem := rfl
@[simp] theorem State.setDout_fault (s : State) (e : Ep) (d : Descriptor) : (s.setDout e d).fault = s.fault := rfl
@[simp] theorem State.setDout_refused (s : State) (e : Ep) (d : Descriptor) : (s.setDout e d).refused = s.refused := rfl
@[simp] theorem State.setDout_refusedBy (s : State) (e : Ep) (d : Descriptor) : (s.setDout e d).refusedBy = s.refusedBy := rfl
@[simp] theorem State.setDout_cur (s : State) (e : Ep) (d : Descriptor) : (s.setDout e d).cur = s.cur := rfl
@[simp] theorem State.setDout_draws (s : State) (e : Ep) (d : Descriptor) : (s.setDout e d).draws = s.draws := rfl
@[simp] theorem State.setDout_sched (s : State) (e : Ep) (d : Descriptor) : (s.setDout e d).sched = s.sched := rfl
@[simp] theorem State.setDout_turns (s : State) (e : Ep) (d : Descriptor) : (s.setDout e d).turns = s.turns := rfl

/-! ## `State.setMem` -/

@[simp] theorem State.setMem_cfg (s : State) (m : Memory) : (s.setMem m).cfg = s.cfg := rfl
@[simp] theorem State.setMem_inited (s : State) (m : Memory) : (s.setMem m).inited = s.inited := rfl
@[simp] theorem State.setMem_core (s : State) (m : Memory) : (s.setMem m).core = s.core := rfl
@[simp] theorem State.setMem_iep (s : State) (m : Memory) : (s.setMem m).iep = s.iep := rfl
@[simp] theorem State.setMem_oep (s : State) (m : Memory) : (s.setMem m).oep = s.oep := rfl
@[simp] theorem State.setMem_rxq (s : State) (m : Memory) : (s.setMem m).rxq = s.rxq := rfl
@[simp] theorem State.setMem_txq (s : State) (m : Memory) : (s.setMem m).txq = s.txq := rfl
@[simp] theorem State.setMem_din (s : State) (m : Memory) : (s.setMem m).din = s.din := rfl
@[simp] theorem State.setMem_dout (s : State) (m : Memory) : (s.setMem m).dout = s.dout := rfl
@[simp] theorem State.setMem_busActive (s : State) (m : Memory) : (s.setMem m).busActive = s.busActive := rfl
@[simp] theorem State.setMem_events (s : State) (m : Memory) : (s.setMem m).events = s.events := rfl
@[simp] theorem State.setMem_setupPending (s : State) (m : Memory) : (s.setMem m).setupPending = s.setupPending := rfl
@[simp] theorem State.setMem_busTx (s : State) (m : Memory) : (s.setMem m).busTx = s.busTx := rfl
@[simp] theorem State.setMem_tasks (s : State) (m : Memory) : (s.setMem m).tasks = s.tasks := rfl
@[simp] theorem State.setMem_now (s : State) (m : Memory) : (s.setMem m).now = s.now := rfl
@[simp] theorem State.setMem_mem (s : State) (m : Memory) : (s.setMem m).mem = m := rfl
@[simp] theorem State.setMem_fault (s : State) (m : Memory) : (s.setMem m).fault = s.fault := rfl
@[simp] theorem State.setMem_refused (s : State) (m : Memory) : (s.setMem m).refused = s.refused := rfl
@[simp] theorem State.setMem_refusedBy (s : State) (m : Memory) : (s.setMem m).refusedBy = s.refusedBy := rfl
@[simp] theorem State.setMem_cur (s : State) (m : Memory) : (s.setMem m).cur = s.cur := rfl
@[simp] theorem State.setMem_draws (s : State) (m : Memory) : (s.setMem m).draws = s.draws := rfl
@[simp] theorem State.setMem_sched (s : State) (m : Memory) : (s.setMem m).sched = s.sched := rfl
@[simp] theorem State.setMem_turns (s : State) (m : Memory) : (s.setMem m).turns = s.turns := rfl

/-! ## `State.setTask` -/

@[simp] theorem State.setTask_cfg (s : State) (t : Nat) (k : Task) : (s.setTask t k).cfg = s.cfg := rfl
@[simp] theorem State.setTask_inited (s : State) (t : Nat) (k : Task) : (s.setTask t k).inited = s.inited := rfl
@[simp] theorem State.setTask_core (s : State) (t : Nat) (k : Task) : (s.setTask t k).core = s.core := rfl
@[simp] theorem State.setTask_iep (s : State) (t : Nat) (k : Task) : (s.setTask t k).iep = s.iep := rfl
@[simp] theorem State.setTask_oep (s : State) (t : Nat) (k : Task) : (s.setTask t k).oep = s.oep := rfl
@[simp] theorem State.setTask_rxq (s : State) (t : Nat) (k : Task) : (s.setTask t k).rxq = s.rxq := rfl
@[simp] theorem State.setTask_txq (s : State) (t : Nat) (k : Task) : (s.setTask t k).txq = s.txq := rfl
@[simp] theorem State.setTask_din (s : State) (t : Nat) (k : Task) : (s.setTask t k).din = s.din := rfl
@[simp] theorem State.setTask_dout (s : State) (t : Nat) (k : Task) : (s.setTask t k).dout = s.dout := rfl
@[simp] theorem State.setTask_busActive (s : State) (t : Nat) (k : Task) : (s.setTask t k).busActive = s.busActive := rfl
@[simp] theorem State.setTask_events (s : State) (t : Nat) (k : Task) : (s.setTask t k).events = s.events := rfl
@[simp] theorem State.setTask_setupPending (s : State) (t : Nat) (k : Task) : (s.setTask t k).setupPending = s.setupPending := rfl
@[simp] theorem State.setTask_busTx (s : State) (t : Nat) (k : Task) : (s.setTask t k).busTx = s.busTx := rfl
@[simp] theorem State.setTask_tasks (s : State) (t : Nat) (k : Task) : (s.setTask t k).tasks = s.tasks.set t k := rfl
@[simp] theorem State.setTask_now (s : State) (t : Nat) (k : Task) : (s.setTask t k).now = s.now := rfl
@[simp] theorem State.setTask_mem (s : State) (t : Nat) (k : Task) : (s.setTask t k).mem = s.mem := rfl
@[simp] theorem State.setTask_fault (s : State) (t : Nat) (k : Task) : (s.setTask t k).fault = s.fault := rfl
@[simp] theorem State.setTask_refused (s : State) (t : Nat) (k : Task) : (s.setTask t k).refused = s.refused := rfl
@[simp] theorem State.setTask_refusedBy (s : State) (t : Nat) (k : Task) : (s.setTask t k).refusedBy = s.refusedBy := rfl
@[simp] theorem State.setTask_cur (s : State) (t : Nat) (k : Task) : (s.setTask t k).cur = s.cur := rfl
@[simp] theorem State.setTask_draws (s : State) (t : Nat) (k : Task) : (s.setTask t k).draws = s.draws := rfl
@[simp] theorem State.setTask_sched (s : State) (t : Nat) (k : Task) : (s.setTask t k).sched = s.sched := rfl
@[simp] theorem State.setTask_turns (s : State) (t : Nat) (k : Task) : (s.setTask t k).turns = s.turns := rfl

/-! ## `State.emit` -/

@[simp] theorem State.emit_cfg (s : State) (ev : BusEvent) : (s.emit ev).cfg = s.cfg := rfl
@[simp] theorem State.emit_inited (s : State) (ev : BusEvent) : (s.emit ev).inited = s.inited := rfl
@[simp] theorem State.emit_core (s : State) (ev : BusEvent) : (s.emit ev).core = s.core := rfl
@[simp] theorem State.emit_iep (s : State) (ev : BusEvent) : (s.emit ev).iep = s.iep := rfl
@[simp] theorem State.emit_oep (s : State) (ev : BusEvent) : (s.emit ev).oep = s.oep := rfl
@[simp] theorem State.emit_rxq (s : State) (ev : BusEvent) : (s.emit ev).rxq = s.rxq := rfl
@[simp] theorem State.emit_txq (s : State) (ev : BusEvent) : (s.emit ev).txq = s.txq := rfl
@[simp] theorem State.emit_din (s : State) (ev : BusEvent) : (s.emit ev).din = s.din := rfl
@[simp] theorem State.emit_dout (s : State) (ev : BusEvent) : (s.emit ev).dout = s.dout := rfl
@[simp] theorem State.emit_busActive (s : State) (ev : BusEvent) : (s.emit ev).busActive = s.busActive := rfl
@[simp] theorem State.emit_events (s : State) (ev : BusEvent) : (s.emit ev).events = s.events ++ [ev] := rfl
@[simp] theorem State.emit_setupPending (s : State) (ev : BusEvent) : (s.emit ev).setupPending = s.setupPending := rfl
@[simp] theorem State.emit_busTx (s : State) (ev : BusEvent) : (s.emit ev).busTx = s.busTx := rfl
@[simp] theorem State.emit_tasks (s : State) (ev : BusEvent) : (s.emit ev).tasks = s.tasks := rfl
@[simp] theorem State.emit_now (s : State) (ev : BusEvent) : (s.emit ev).now = s.now := rfl
@[simp] theorem State.emit_mem (s : State) (ev : BusEvent) : (s.emit ev).mem = s.mem := rfl
@[simp] theorem State.emit_fault (s : State) (ev : BusEvent) : (s.emit ev).fault = s.fault := rfl
@[simp] theorem State.emit_refused (s : State) (ev : BusEvent) : (s.emit ev).refused = s.refused := rfl
@[simp] theorem State.emit_refusedBy (s : State) (ev : BusEvent) : (s.emit ev).refusedBy = s.refusedBy := rfl
@[simp] theorem State.emit_cur (s : State) (ev : BusEvent) : (s.emit ev).cur = s.cur := rfl
@[simp] theorem State.emit_draws (s : State) (ev : BusEvent) : (s.emit ev).draws = s.draws := rfl
@[simp] theorem State.emit_sched (s : State) (ev : BusEvent) : (s.emit ev).sched = s.sched := rfl
@[simp] theorem State.emit_turns (s : State) (ev : BusEvent) : (s.emit ev).turns = s.turns := rfl

/-! ## `refuse` and `raise` -/

@[simp] theorem refuse_cfg (r : RefuseReason) (s : State) : (refuse r s).cfg = s.cfg := rfl
@[simp] theorem refuse_inited (r : RefuseReason) (s : State) : (refuse r s).inited = s.inited := rfl
@[simp] theorem refuse_core (r : RefuseReason) (s : State) : (refuse r s).core = s.core := rfl
@[simp] theorem refuse_iep (r : RefuseReason) (s : State) : (refuse r s).iep = s.iep := rfl
@[simp] theorem refuse_oep (r : RefuseReason) (s : State) : (refuse r s).oep = s.oep := rfl
@[simp] theorem refuse_rxq (r : RefuseReason) (s : State) : (refuse r s).rxq = s.rxq := rfl
@[simp] theorem refuse_txq (r : RefuseReason) (s : State) : (refuse r s).txq = s.txq := rfl
@[simp] theorem refuse_din (r : RefuseReason) (s : State) : (refuse r s).din = s.din := rfl
@[simp] theorem refuse_dout (r : RefuseReason) (s : State) : (refuse r s).dout = s.dout := rfl
@[simp] theorem refuse_busActive (r : RefuseReason) (s : State) : (refuse r s).busActive = s.busActive := rfl
@[simp] theorem refuse_events (r : RefuseReason) (s : State) : (refuse r s).events = s.events := rfl
@[simp] theorem refuse_setupPending (r : RefuseReason) (s : State) : (refuse r s).setupPending = s.setupPending := rfl
@[simp] theorem refuse_busTx (r : RefuseReason) (s : State) : (refuse r s).busTx = s.busTx := rfl
@[simp] theorem refuse_tasks (r : RefuseReason) (s : State) : (refuse r s).tasks = s.tasks := rfl
@[simp] theorem refuse_now (r : RefuseReason) (s : State) : (refuse r s).now = s.now := rfl
@[simp] theorem refuse_mem (r : RefuseReason) (s : State) : (refuse r s).mem = s.mem := rfl
@[simp] theorem refuse_fault (r : RefuseReason) (s : State) : (refuse r s).fault = s.fault := rfl
@[simp] theorem refuse_refused (r : RefuseReason) (s : State) : (refuse r s).refused = true := rfl
@[simp] theorem refuse_refusedBy (r : RefuseReason) (s : State) : (refuse r s).refusedBy = some r := rfl
@[simp] theorem refuse_cur (r : RefuseReason) (s : State) : (refuse r s).cur = s.cur := rfl
@[simp] theorem refuse_draws (r : RefuseReason) (s : State) : (refuse r s).draws = s.draws := rfl
@[simp] theorem refuse_sched (r : RefuseReason) (s : State) : (refuse r s).sched = s.sched := rfl
@[simp] theorem refuse_turns (r : RefuseReason) (s : State) : (refuse r s).turns = s.turns := rfl
@[simp] theorem raise_cfg (r : FaultReason) (s : State) : (raise r s).cfg = s.cfg := rfl
@[simp] theorem raise_inited (r : FaultReason) (s : State) : (raise r s).inited = s.inited := rfl
@[simp] theorem raise_core (r : FaultReason) (s : State) : (raise r s).core = s.core := rfl
@[simp] theorem raise_iep (r : FaultReason) (s : State) : (raise r s).iep = s.iep := rfl
@[simp] theorem raise_oep (r : FaultReason) (s : State) : (raise r s).oep = s.oep := rfl
@[simp] theorem raise_rxq (r : FaultReason) (s : State) : (raise r s).rxq = s.rxq := rfl
@[simp] theorem raise_txq (r : FaultReason) (s : State) : (raise r s).txq = s.txq := rfl
@[simp] theorem raise_din (r : FaultReason) (s : State) : (raise r s).din = s.din := rfl
@[simp] theorem raise_dout (r : FaultReason) (s : State) : (raise r s).dout = s.dout := rfl
@[simp] theorem raise_busActive (r : FaultReason) (s : State) : (raise r s).busActive = s.busActive := rfl
@[simp] theorem raise_events (r : FaultReason) (s : State) : (raise r s).events = s.events := rfl
@[simp] theorem raise_setupPending (r : FaultReason) (s : State) : (raise r s).setupPending = s.setupPending := rfl
@[simp] theorem raise_busTx (r : FaultReason) (s : State) : (raise r s).busTx = s.busTx := rfl
@[simp] theorem raise_tasks (r : FaultReason) (s : State) : (raise r s).tasks = s.tasks := rfl
@[simp] theorem raise_now (r : FaultReason) (s : State) : (raise r s).now = s.now := rfl
@[simp] theorem raise_mem (r : FaultReason) (s : State) : (raise r s).mem = s.mem := rfl
@[simp] theorem raise_refused (r : FaultReason) (s : State) : (raise r s).refused = s.refused := rfl
@[simp] theorem raise_refusedBy (r : FaultReason) (s : State) : (raise r s).refusedBy = s.refusedBy := rfl
@[simp] theorem raise_cur (r : FaultReason) (s : State) : (raise r s).cur = s.cur := rfl
@[simp] theorem raise_draws (r : FaultReason) (s : State) : (raise r s).draws = s.draws := rfl
@[simp] theorem raise_sched (r : FaultReason) (s : State) : (raise r s).sched = s.sched := rfl
@[simp] theorem raise_turns (r : FaultReason) (s : State) : (raise r s).turns = s.turns := rfl

/-- The first fault is kept (10_state R49). -/
theorem raise_fault (r : FaultReason) (s : State) : (raise r s).fault = some (s.fault.getD r) := by
  unfold raise; cases s.fault <;> rfl

/-! ## The issuing task -/

@[simp] theorem onCur_cfg (g : Task → Task) (s : State) : (onCur g s).cfg = s.cfg := by unfold onCur; split <;> rfl
@[simp] theorem onCur_inited (g : Task → Task) (s : State) : (onCur g s).inited = s.inited := by unfold onCur; split <;> rfl
@[simp] theorem onCur_core (g : Task → Task) (s : State) : (onCur g s).core = s.core := by unfold onCur; split <;> rfl
@[simp] theorem onCur_iep (g : Task → Task) (s : State) : (onCur g s).iep = s.iep := by unfold onCur; split <;> rfl
@[simp] theorem onCur_oep (g : Task → Task) (s : State) : (onCur g s).oep = s.oep := by unfold onCur; split <;> rfl
@[simp] theorem onCur_rxq (g : Task → Task) (s : State) : (onCur g s).rxq = s.rxq := by unfold onCur; split <;> rfl
@[simp] theorem onCur_txq (g : Task → Task) (s : State) : (onCur g s).txq = s.txq := by unfold onCur; split <;> rfl
@[simp] theorem onCur_din (g : Task → Task) (s : State) : (onCur g s).din = s.din := by unfold onCur; split <;> rfl
@[simp] theorem onCur_dout (g : Task → Task) (s : State) : (onCur g s).dout = s.dout := by unfold onCur; split <;> rfl
@[simp] theorem onCur_busActive (g : Task → Task) (s : State) : (onCur g s).busActive = s.busActive := by unfold onCur; split <;> rfl
@[simp] theorem onCur_events (g : Task → Task) (s : State) : (onCur g s).events = s.events := by unfold onCur; split <;> rfl
@[simp] theorem onCur_setupPending (g : Task → Task) (s : State) : (onCur g s).setupPending = s.setupPending := by unfold onCur; split <;> rfl
@[simp] theorem onCur_busTx (g : Task → Task) (s : State) : (onCur g s).busTx = s.busTx := by unfold onCur; split <;> rfl
@[simp] theorem onCur_now (g : Task → Task) (s : State) : (onCur g s).now = s.now := by unfold onCur; split <;> rfl
@[simp] theorem onCur_mem (g : Task → Task) (s : State) : (onCur g s).mem = s.mem := by unfold onCur; split <;> rfl
@[simp] theorem onCur_fault (g : Task → Task) (s : State) : (onCur g s).fault = s.fault := by unfold onCur; split <;> rfl
@[simp] theorem onCur_refused (g : Task → Task) (s : State) : (onCur g s).refused = s.refused := by unfold onCur; split <;> rfl
@[simp] theorem onCur_refusedBy (g : Task → Task) (s : State) : (onCur g s).refusedBy = s.refusedBy := by unfold onCur; split <;> rfl
@[simp] theorem onCur_cur (g : Task → Task) (s : State) : (onCur g s).cur = s.cur := by unfold onCur; split <;> rfl
@[simp] theorem onCur_draws (g : Task → Task) (s : State) : (onCur g s).draws = s.draws := by unfold onCur; split <;> rfl
@[simp] theorem onCur_sched (g : Task → Task) (s : State) : (onCur g s).sched = s.sched := by unfold onCur; split <;> rfl
@[simp] theorem onCur_turns (g : Task → Task) (s : State) : (onCur g s).turns = s.turns := by unfold onCur; split <;> rfl

@[simp] theorem advance_cfg (s : State) : (advance s).cfg = s.cfg := onCur_cfg _ s
@[simp] theorem advance_inited (s : State) : (advance s).inited = s.inited := onCur_inited _ s
@[simp] theorem advance_core (s : State) : (advance s).core = s.core := onCur_core _ s
@[simp] theorem advance_iep (s : State) : (advance s).iep = s.iep := onCur_iep _ s
@[simp] theorem advance_oep (s : State) : (advance s).oep = s.oep := onCur_oep _ s
@[simp] theorem advance_rxq (s : State) : (advance s).rxq = s.rxq := onCur_rxq _ s
@[simp] theorem advance_txq (s : State) : (advance s).txq = s.txq := onCur_txq _ s
@[simp] theorem advance_din (s : State) : (advance s).din = s.din := onCur_din _ s
@[simp] theorem advance_dout (s : State) : (advance s).dout = s.dout := onCur_dout _ s
@[simp] theorem advance_busActive (s : State) : (advance s).busActive = s.busActive := onCur_busActive _ s
@[simp] theorem advance_events (s : State) : (advance s).events = s.events := onCur_events _ s
@[simp] theorem advance_setupPending (s : State) : (advance s).setupPending = s.setupPending := onCur_setupPending _ s
@[simp] theorem advance_busTx (s : State) : (advance s).busTx = s.busTx := onCur_busTx _ s
@[simp] theorem advance_now (s : State) : (advance s).now = s.now := onCur_now _ s
@[simp] theorem advance_mem (s : State) : (advance s).mem = s.mem := onCur_mem _ s
@[simp] theorem advance_fault (s : State) : (advance s).fault = s.fault := onCur_fault _ s
@[simp] theorem advance_refused (s : State) : (advance s).refused = s.refused := onCur_refused _ s
@[simp] theorem advance_refusedBy (s : State) : (advance s).refusedBy = s.refusedBy := onCur_refusedBy _ s
@[simp] theorem advance_cur (s : State) : (advance s).cur = s.cur := onCur_cur _ s
@[simp] theorem advance_draws (s : State) : (advance s).draws = s.draws := onCur_draws _ s
@[simp] theorem advance_sched (s : State) : (advance s).sched = s.sched := onCur_sched _ s
@[simp] theorem advance_turns (s : State) : (advance s).turns = s.turns := onCur_turns _ s

@[simp] theorem returnRes_cfg (v : Word) (s : State) : (returnRes v s).cfg = s.cfg := onCur_cfg _ s
@[simp] theorem returnRes_inited (v : Word) (s : State) : (returnRes v s).inited = s.inited := onCur_inited _ s
@[simp] theorem returnRes_core (v : Word) (s : State) : (returnRes v s).core = s.core := onCur_core _ s
@[simp] theorem returnRes_iep (v : Word) (s : State) : (returnRes v s).iep = s.iep := onCur_iep _ s
@[simp] theorem returnRes_oep (v : Word) (s : State) : (returnRes v s).oep = s.oep := onCur_oep _ s
@[simp] theorem returnRes_rxq (v : Word) (s : State) : (returnRes v s).rxq = s.rxq := onCur_rxq _ s
@[simp] theorem returnRes_txq (v : Word) (s : State) : (returnRes v s).txq = s.txq := onCur_txq _ s
@[simp] theorem returnRes_din (v : Word) (s : State) : (returnRes v s).din = s.din := onCur_din _ s
@[simp] theorem returnRes_dout (v : Word) (s : State) : (returnRes v s).dout = s.dout := onCur_dout _ s
@[simp] theorem returnRes_busActive (v : Word) (s : State) : (returnRes v s).busActive = s.busActive := onCur_busActive _ s
@[simp] theorem returnRes_events (v : Word) (s : State) : (returnRes v s).events = s.events := onCur_events _ s
@[simp] theorem returnRes_setupPending (v : Word) (s : State) : (returnRes v s).setupPending = s.setupPending := onCur_setupPending _ s
@[simp] theorem returnRes_busTx (v : Word) (s : State) : (returnRes v s).busTx = s.busTx := onCur_busTx _ s
@[simp] theorem returnRes_now (v : Word) (s : State) : (returnRes v s).now = s.now := onCur_now _ s
@[simp] theorem returnRes_mem (v : Word) (s : State) : (returnRes v s).mem = s.mem := onCur_mem _ s
@[simp] theorem returnRes_fault (v : Word) (s : State) : (returnRes v s).fault = s.fault := onCur_fault _ s
@[simp] theorem returnRes_refused (v : Word) (s : State) : (returnRes v s).refused = s.refused := onCur_refused _ s
@[simp] theorem returnRes_refusedBy (v : Word) (s : State) : (returnRes v s).refusedBy = s.refusedBy := onCur_refusedBy _ s
@[simp] theorem returnRes_cur (v : Word) (s : State) : (returnRes v s).cur = s.cur := onCur_cur _ s
@[simp] theorem returnRes_draws (v : Word) (s : State) : (returnRes v s).draws = s.draws := onCur_draws _ s
@[simp] theorem returnRes_sched (v : Word) (s : State) : (returnRes v s).sched = s.sched := onCur_sched _ s
@[simp] theorem returnRes_turns (v : Word) (s : State) : (returnRes v s).turns = s.turns := onCur_turns _ s

@[simp] theorem wait_cfg (dir : Dir) (e : Ep) (tmo : Word) (s : State) : (wait dir e tmo s).cfg = s.cfg := onCur_cfg _ s
@[simp] theorem wait_inited (dir : Dir) (e : Ep) (tmo : Word) (s : State) : (wait dir e tmo s).inited = s.inited := onCur_inited _ s
@[simp] theorem wait_core (dir : Dir) (e : Ep) (tmo : Word) (s : State) : (wait dir e tmo s).core = s.core := onCur_core _ s
@[simp] theorem wait_iep (dir : Dir) (e : Ep) (tmo : Word) (s : State) : (wait dir e tmo s).iep = s.iep := onCur_iep _ s
@[simp] theorem wait_oep (dir : Dir) (e : Ep) (tmo : Word) (s : State) : (wait dir e tmo s).oep = s.oep := onCur_oep _ s
@[simp] theorem wait_rxq (dir : Dir) (e : Ep) (tmo : Word) (s : State) : (wait dir e tmo s).rxq = s.rxq := onCur_rxq _ s
@[simp] theorem wait_txq (dir : Dir) (e : Ep) (tmo : Word) (s : State) : (wait dir e tmo s).txq = s.txq := onCur_txq _ s
@[simp] theorem wait_din (dir : Dir) (e : Ep) (tmo : Word) (s : State) : (wait dir e tmo s).din = s.din := onCur_din _ s
@[simp] theorem wait_dout (dir : Dir) (e : Ep) (tmo : Word) (s : State) : (wait dir e tmo s).dout = s.dout := onCur_dout _ s
@[simp] theorem wait_busActive (dir : Dir) (e : Ep) (tmo : Word) (s : State) : (wait dir e tmo s).busActive = s.busActive := onCur_busActive _ s
@[simp] theorem wait_events (dir : Dir) (e : Ep) (tmo : Word) (s : State) : (wait dir e tmo s).events = s.events := onCur_events _ s
@[simp] theorem wait_setupPending (dir : Dir) (e : Ep) (tmo : Word) (s : State) : (wait dir e tmo s).setupPending = s.setupPending := onCur_setupPending _ s
@[simp] theorem wait_busTx (dir : Dir) (e : Ep) (tmo : Word) (s : State) : (wait dir e tmo s).busTx = s.busTx := onCur_busTx _ s
@[simp] theorem wait_now (dir : Dir) (e : Ep) (tmo : Word) (s : State) : (wait dir e tmo s).now = s.now := onCur_now _ s
@[simp] theorem wait_mem (dir : Dir) (e : Ep) (tmo : Word) (s : State) : (wait dir e tmo s).mem = s.mem := onCur_mem _ s
@[simp] theorem wait_fault (dir : Dir) (e : Ep) (tmo : Word) (s : State) : (wait dir e tmo s).fault = s.fault := onCur_fault _ s
@[simp] theorem wait_refused (dir : Dir) (e : Ep) (tmo : Word) (s : State) : (wait dir e tmo s).refused = s.refused := onCur_refused _ s
@[simp] theorem wait_refusedBy (dir : Dir) (e : Ep) (tmo : Word) (s : State) : (wait dir e tmo s).refusedBy = s.refusedBy := onCur_refusedBy _ s
@[simp] theorem wait_cur (dir : Dir) (e : Ep) (tmo : Word) (s : State) : (wait dir e tmo s).cur = s.cur := onCur_cur _ s
@[simp] theorem wait_draws (dir : Dir) (e : Ep) (tmo : Word) (s : State) : (wait dir e tmo s).draws = s.draws := onCur_draws _ s
@[simp] theorem wait_sched (dir : Dir) (e : Ep) (tmo : Word) (s : State) : (wait dir e tmo s).sched = s.sched := onCur_sched _ s
@[simp] theorem wait_turns (dir : Dir) (e : Ep) (tmo : Word) (s : State) : (wait dir e tmo s).turns = s.turns := onCur_turns _ s

/-- The other tasks are not touched. -/
theorem onCur_tasks (g : Task → Task) (s : State) (k : Task) (h : s.tasks[s.cur]? = some k) :
    (onCur g s).tasks = s.tasks.set s.cur (g k) := by
  simp [onCur, h]

theorem onCur_tasks_length (g : Task → Task) (s : State) : (onCur g s).tasks.length = s.tasks.length := by
  unfold onCur; split <;> simp

theorem onCur_tasks_other (g : Task → Task) (s : State) (t : Nat) (h : t ≠ s.cur) :
    (onCur g s).tasks[t]? = s.tasks[t]? := by
  unfold onCur
  split
  · simp [State.setTask, Ne.symm h]
  · rfl

end Sys2Proof.Machine
end

