-- ==== Sys2Proof/Laws/Ops.lean ====
section
/-! SUPPORT. The shared operations: the control of a step, the packet primitives, the arm step, the poll, and what each
can do, said once. -/

namespace Sys2Proof.Machine

/-! ## The control of a step -/

@[simp] theorem Ctl.bind_go (s : State) (f : State → Ctl) : (Ctl.go s).bind f = f s := rfl
@[simp] theorem Ctl.bind_ended (s : State) (f : State → Ctl) : (Ctl.ended s).bind f = .ended s := rfl
@[simp] theorem Ctl.bind_stop (r : Fault) (f : State → Ctl) : (Ctl.stop r).bind f = .stop r := rfl
@[simp] theorem Ctl.outcome_go (s : State) : (Ctl.go s).outcome = .next s := rfl
@[simp] theorem Ctl.outcome_ended (s : State) : (Ctl.ended s).outcome = .next s := rfl
@[simp] theorem Ctl.outcome_stop (r : Fault) : (Ctl.stop r).outcome = .fault r := rfl
@[simp] theorem runIf_true (f : State → Ctl) (s : State) : runIf true f s = f s := rfl
@[simp] theorem runIf_false (f : State → Ctl) (s : State) : runIf false f s = .go s := rfl
@[simp] theorem forEps_nil (f : Ep → State → Ctl) (s : State) : forEps [] f s = .go s := rfl
@[simp] theorem forEps_cons (e : Ep) (es : List Ep) (f : Ep → State → Ctl) (s : State) :
    forEps (e :: es) f s = (f e s).bind (forEps es f) := rfl

theorem Ctl.bind_assoc (c : Ctl) (f g : State → Ctl) : (c.bind f).bind g = c.bind fun s => (f s).bind g := by
  cases c <;> rfl

/-- A part of a step answers only states in `P`: where it goes on and where it ends. -/
def Ctl.Within (P : State → Prop) : Ctl → Prop
  | .go s => P s
  | .ended s => P s
  | .stop _ => True

theorem Ctl.Within.mono {P Q : State → Prop} {c : Ctl} (h : c.Within P) (hpq : ∀ s, P s → Q s) : c.Within Q := by
  cases c with
  | go s => exact hpq s h
  | ended s => exact hpq s h
  | stop r => trivial

theorem Ctl.Within.bind {P : State → Prop} {c : Ctl} {f : State → Ctl} (h : c.Within P)
    (hf : ∀ s, P s → (f s).Within P) : (c.bind f).Within P := by
  cases c with
  | go s => exact hf s h
  | ended s => exact h
  | stop r => trivial

theorem Ctl.Within.outcome {P : State → Prop} {c : Ctl} {t : State} (h : c.Within P) (ht : c.outcome = .next t) :
    P t := by
  cases c with
  | go s => cases ht; exact h
  | ended s => cases ht; exact h
  | stop r => cases ht

theorem Ctl.Within.runIf {P : State → Prop} {b : Bool} {f : State → Ctl} {s : State} (hs : P s)
    (hf : b = true → (f s).Within P) : (runIf b f s).Within P := by
  cases b with
  | false => exact hs
  | true => exact hf rfl

/-- A loop over endpoints stays within what each of its rounds keeps. -/
theorem Ctl.Within.forEps {P : State → Prop} {f : Ep → State → Ctl} (hf : ∀ e s, P s → (f e s).Within P)
    (es : List Ep) {s : State} (hs : P s) : (forEps es f s).Within P := by
  induction es generalizing s with
  | nil => exact hs
  | cons e es ih => exact (hf e s hs).bind fun t ht => ih ht

/-- One iteration of the dispatcher stays within what each of its services keeps (42_bus_event_handler R103). -/
theorem dispatch_within {P : State → Prop} (hreset : ∀ s, P s → P (busReset s)) (henum : ∀ s, P s → P (enumDone s))
    (hrx : ∀ s, P s → (receiveService s).Within P) (hin : ∀ e s, P s → (inEndpoint e s).Within P)
    (hout : ∀ old e s, P s → (outEndpoint old e s).Within P) (hiso : ∀ a b s, P s → P (isoIncomplete a b s))
    (hwake : ∀ s, P s → P (wake s)) {s : State} (hs : P s) : (dispatch s).Within P := by
  unfold dispatch
  split
  · exact hs
  unfold services
  refine Ctl.Within.bind (Ctl.Within.runIf hs fun _ => hreset _ hs) fun s hs => ?_
  refine Ctl.Within.bind (Ctl.Within.runIf hs fun _ => henum _ hs) fun s hs => ?_
  refine Ctl.Within.bind (Ctl.Within.runIf hs fun _ => hrx _ hs) fun s hs => ?_
  refine Ctl.Within.bind (Ctl.Within.runIf hs fun _ => Ctl.Within.forEps hin _ hs) fun s hs => ?_
  refine Ctl.Within.bind (Ctl.Within.runIf hs fun _ => Ctl.Within.forEps (fun e => hout _ e) _ hs) fun s hs => ?_
  refine Ctl.Within.bind (Ctl.Within.runIf hs fun _ => hiso _ _ _ hs) fun s hs => ?_
  exact Ctl.Within.runIf hs fun _ => hwake _ hs

/-- On an endpoint whose bank is as it was sampled, the service is the loop body of 42_bus_event_handler R111. -/
theorem outEndpoint_self (e : Ep) (s : State) :
    outEndpoint (s.oep.get e) e s = .go (if outPending s e then outEvent e false false s else s) := by
  unfold outEndpoint outPendingSince outPending outXfrcFlag outStupFlag
  cases (s.oep.get e).xfrc <;> cases (s.oep.get e).stup <;> simp

/-! ## The packet primitives -/

@[simp] theorem wordsFor_zero : wordsFor 0 = 0 := rfl

/-- `wordsFor` is the least number of words that holds the bytes (00_scope R13). -/
theorem wordsFor_le_iff (n k : Nat) : wordsFor n ≤ k ↔ n ≤ 4 * k := by
  unfold wordsFor ceilDiv; omega

@[simp] theorem wordsFor_mul_four (k : Nat) : wordsFor (4 * k) = k := by
  unfold wordsFor ceilDiv; omega

theorem wordsFor_mono {m n : Nat} (h : m ≤ n) : wordsFor m ≤ wordsFor n := by
  unfold wordsFor ceilDiv; omega

/-- A packet's words are as many as 40_fifo_marshaling R91 says. -/
@[simp] theorem packBytes_length (pad : Word) (bs : List Byte) : (packBytes pad bs).length = wordsFor bs.length := by
  fun_induction packBytes pad bs with
  | case1 => rfl
  | case2 => simp [wordsFor, ceilDiv]
  | case3 => simp [wordsFor, ceilDiv]
  | case4 => simp [wordsFor, ceilDiv]
  | case5 b0 b1 b2 b3 rest ih => simp only [List.length_cons, ih]; unfold wordsFor ceilDiv; omega

@[simp] theorem unpackWords_nil : unpackWords [] = [] := rfl

@[simp] theorem unpackWords_cons (w : Word) (ws : List Word) : unpackWords (w :: ws) = bytesOfWord w ++ unpackWords ws :=
  rfl

@[simp] theorem bytesOfWord_length (w : Word) : (bytesOfWord w).length = 4 := rfl

@[simp] theorem unpackWords_length (ws : List Word) : (unpackWords ws).length = 4 * ws.length := by
  induction ws with
  | nil => rfl
  | cons w ws ih => simp [ih]; omega

/-- The byte at position i of unpacked words is byte i mod 4 of word i / 4 (20_memory R56). -/
theorem unpackWords_getElem? (ws : List Word) (i : Nat) :
    (unpackWords ws)[i]? = (ws[i / 4]?).map fun w => byteAt w (i % 4) := by
  induction ws generalizing i with
  | nil => simp
  | cons w ws ih =>
    rw [unpackWords_cons]
    by_cases h : i < 4
    · rw [List.getElem?_append_left (by simpa using h)]
      have hi : i = 0 ∨ i = 1 ∨ i = 2 ∨ i = 3 := by omega
      rcases hi with rfl | rfl | rfl | rfl <;> rfl
    · rw [List.getElem?_append_right (by simpa using h), bytesOfWord_length, ih]
      obtain ⟨j, rfl⟩ : ∃ j, i = j + 4 := ⟨i - 4, by omega⟩
      have h1 : (j + 4) / 4 = j / 4 + 1 := by omega
      have h2 : (j + 4) % 4 = j % 4 := by omega
      rw [h1, h2, Nat.add_sub_cancel]; simp

theorem byteAt_wordOfBytes (b0 b1 b2 b3 : Byte) :
    byteAt (wordOfBytes b0 b1 b2 b3) 0 = b0 ∧ byteAt (wordOfBytes b0 b1 b2 b3) 1 = b1 ∧
    byteAt (wordOfBytes b0 b1 b2 b3) 2 = b2 ∧ byteAt (wordOfBytes b0 b1 b2 b3) 3 = b3 := by
  refine ⟨?_, ?_, ?_, ?_⟩ <;>
  · apply BitVec.eq_of_getLsbD_eq
    intro i hi
    simp only [byteAt, wordOfBytes, BitVec.getLsbD_extractLsb', BitVec.getLsbD_append]
    have : i < 8 := hi
    simp [this]
    repeat' split
    all_goals first | rfl | omega

/-- Unpacking packed bytes gives them back, whatever the padding (20_memory R58). -/
theorem unpackWords_packBytes (pad : Word) (bs : List Byte) : (unpackWords (packBytes pad bs)).take bs.length = bs := by
  fun_induction packBytes pad bs with
  | case1 => rfl
  | case2 b0 => simp [bytesOfWord, byteAt_wordOfBytes]
  | case3 b0 b1 => simp [bytesOfWord, byteAt_wordOfBytes]
  | case4 b0 b1 b2 => simp [bytesOfWord, byteAt_wordOfBytes]
  | case5 b0 b1 b2 b3 rest ih =>
    have hb := byteAt_wordOfBytes b0 b1 b2 b3
    simp [bytesOfWord, hb.1, hb.2.1, hb.2.2.1, hb.2.2.2, ih]

/-- `dumpPacket` either pops the words it wants or records an underflow with the FIFO empty (40_fifo_marshaling R94). -/
theorem dumpPacket_cases (size : Nat) (s : State) :
    (wordsFor size ≤ s.rxq.length ∧ dumpPacket size s = .go (s.setRxq (s.rxq.drop (wordsFor size)))) ∨
    (s.rxq.length < wordsFor size ∧ dumpPacket size s = .ended (raise .rxUnderflow (s.setRxq []))) := by
  unfold dumpPacket popEnd
  by_cases h : s.rxq.length < wordsFor size
  · right; refine ⟨h, ?_⟩
    rw [if_pos h, List.drop_eq_nil_of_le (by omega)]
  · left; exact ⟨by omega, by rw [if_neg h]⟩

/-- `readPacket` stops on a range that leaves the memory; else it writes the bytes of the words it pops, and records an
underflow where the FIFO runs out (40_fifo_marshaling R92). -/
theorem readPacket_cases (dst size : Nat) (s : State) :
    (memBytes s.cfg < dst + size ∧ readPacket dst size s = .stop .addressSpace) ∨
    (dst + size ≤ memBytes s.cfg ∧ wordsFor size ≤ s.rxq.length ∧ readPacket dst size s =
      .go ((s.setMem (s.mem.writeBytes dst ((unpackWords (s.rxq.take (wordsFor size))).take size))).setRxq
        (s.rxq.drop (wordsFor size)))) ∨
    (dst + size ≤ memBytes s.cfg ∧ s.rxq.length < wordsFor size ∧ readPacket dst size s =
      .ended (raise .rxUnderflow
        ((s.setMem (s.mem.writeBytes dst ((unpackWords s.rxq).take size))).setRxq []))) := by
  unfold readPacket inSpace popEnd
  by_cases hs : dst + size ≤ memBytes s.cfg
  · by_cases h : s.rxq.length < wordsFor size
    · right; right
      simp [hs, h, List.take_of_length_le (Nat.le_of_lt h), List.drop_eq_nil_of_le (Nat.le_of_lt h)]
    · right; left
      simp [hs, h]; omega
  · left
    exact ⟨by omega, by simp [hs]⟩

/-- `writePacket` answers the count and the pushed words, or stops on a range that leaves the memory (40 R93). -/
theorem writePacket_cases (e : Ep) (src size : Nat) (s : State) :
    (src + writeCount s e size ≤ memBytes s.cfg ∧ writePacket e src size s = .ok (writeCount s e size,
      s.setTxq e (s.txq.get e ++ packBytes (s.draws.pad.get e) (s.mem.readBytes src (writeCount s e size))))) ∨
    (memBytes s.cfg < src + writeCount s e size ∧ writePacket e src size s = .error .addressSpace) := by
  unfold writePacket inSpace
  by_cases h : src + writeCount s e size ≤ memBytes s.cfg
  · left; simp [h]
  · right; exact ⟨by omega, by simp [h]⟩

theorem writeCount_le (s : State) (e : Ep) (size : Nat) : writeCount s e size ≤ size := Nat.min_le_left _ _

/-- The push never overflows the transmit FIFO (40_fifo_marshaling R93). -/
theorem wordsFor_writeCount (s : State) (e : Ep) (size : Nat) :
    wordsFor (writeCount s e size) ≤ (s.core.txfd.get e).toNat - (s.txq.get e).length := by
  rw [wordsFor_le_iff]; unfold writeCount txAvailBytes txAvailWords; omega

/-! ## The arm step (43_transfer_api R117) -/

theorem armStep_cases (v : ArmVerdict) (arm : State → Ctl) (s : State) :
    (∃ r, v = .refused r ∧ armStep v arm s = .go (refuse r s)) ∨
    (∃ c, v = .error c ∧ armStep v arm s = .go (returnRes c s)) ∨
    (∃ f, v = .faulted f ∧ armStep v arm s = .ended (raise f s)) ∨
    (v = .pass ∧ armStep v arm s = arm s) := by
  cases v with
  | refused r => exact .inl ⟨r, rfl, rfl⟩
  | error c => exact .inr (.inl ⟨c, rfl, rfl⟩)
  | faulted f => exact .inr (.inr (.inl ⟨f, rfl, rfl⟩))
  | pass => exact .inr (.inr (.inr ⟨rfl, rfl⟩))

/-- The checks pass exactly when none of the seven applies. -/
theorem armVerdict_pass {inited configured controlOnly armed : Bool} {limit : Option RefuseReason} {space buf size : Nat}
    {race : Option Nat} (h : armVerdict inited configured controlOnly armed limit space buf size race = .pass) :
    inited = true ∧ configured = true ∧ controlOnly = true ∧ armed = false ∧ limit = none ∧ buf + size ≤ space ∧
      race = none := by
  unfold armVerdict at h
  cases inited <;> cases configured <;> cases controlOnly <;> cases armed <;> cases limit <;>
    simp at h ⊢
  by_cases hw : space < buf + size
  · simp [hw] at h
  · cases race <;> simp [hw] at h ⊢
    omega

/-! ## The poll (43_transfer_api R123) -/

/-- A poll ends the wait with a count, with Reset or with Timeout, or it changes nothing. -/
theorem poll_cases (dir : Dir) (e : Ep) (t0 : Nat) (tmo : Word) (s : State) :
    (∃ n, (descriptor s dir e).status = .complete n ∧ poll dir e t0 tmo s = endWait dir e n s) ∨
    ((descriptor s dir e).status = .failed .reset ∧ poll dir e t0 tmo s = endWait dir e codeReset s) ∨
    (((descriptor s dir e).status = .armed ∨ (descriptor s dir e).status = .idle) ∧
      tmo.toNat < elapsed s.cfg s.now t0 ∧ poll dir e t0 tmo s = endWait dir e codeTimeout (timeoutRecover dir e s)) ∨
    (((descriptor s dir e).status = .armed ∨ (descriptor s dir e).status = .idle) ∧
      ¬ tmo.toNat < elapsed s.cfg s.now t0 ∧ poll dir e t0 tmo s = s) := by
  unfold poll
  cases h : (descriptor s dir e).status with
  | idle => by_cases ht : tmo.toNat < elapsed s.cfg s.now t0 <;> simp [ht]
  | armed => by_cases ht : tmo.toNat < elapsed s.cfg s.now t0 <;> simp [ht]
  | complete n => exact .inl ⟨n, rfl, rfl⟩
  | failed err => cases err; exact .inr (.inl ⟨rfl, rfl⟩)

end Sys2Proof.Machine
end

