-- ==== Sys2Proof/Laws/PerEp.lean ====
section
/-! SUPPORT. Reading and writing one of eight values. -/

namespace Sys2Proof.Machine

@[simp] theorem PerEp.get_all {α : Type} (a : α) (e : Ep) : (PerEp.all a).get e = a := by
  match e with
  | 0 | 1 | 2 | 3 | 4 | 5 | 6 | 7 => rfl

@[simp] theorem PerEp.get_map {α β : Type} (f : α → β) (t : PerEp α) (e : Ep) : (t.map f).get e = f (t.get e) := by
  match e with
  | 0 | 1 | 2 | 3 | 4 | 5 | 6 | 7 => rfl

@[simp] theorem PerEp.get_set_self {α : Type} (t : PerEp α) (e : Ep) (a : α) : (t.set e a).get e = a := by
  match e with
  | 0 | 1 | 2 | 3 | 4 | 5 | 6 | 7 => rfl

theorem PerEp.get_set_of_ne {α : Type} (t : PerEp α) (e k : Ep) (a : α) (h : k ≠ e) : (t.set e a).get k = t.get k := by
  match e, k with
  | 0, 0 | 1, 1 | 2, 2 | 3, 3 | 4, 4 | 5, 5 | 6, 6 | 7, 7 => exact absurd rfl h
  | 0, 1 | 0, 2 | 0, 3 | 0, 4 | 0, 5 | 0, 6 | 0, 7 => rfl
  | 1, 0 | 1, 2 | 1, 3 | 1, 4 | 1, 5 | 1, 6 | 1, 7 => rfl
  | 2, 0 | 2, 1 | 2, 3 | 2, 4 | 2, 5 | 2, 6 | 2, 7 => rfl
  | 3, 0 | 3, 1 | 3, 2 | 3, 4 | 3, 5 | 3, 6 | 3, 7 => rfl
  | 4, 0 | 4, 1 | 4, 2 | 4, 3 | 4, 5 | 4, 6 | 4, 7 => rfl
  | 5, 0 | 5, 1 | 5, 2 | 5, 3 | 5, 4 | 5, 6 | 5, 7 => rfl
  | 6, 0 | 6, 1 | 6, 2 | 6, 3 | 6, 4 | 6, 5 | 6, 7 => rfl
  | 7, 0 | 7, 1 | 7, 2 | 7, 3 | 7, 4 | 7, 5 | 7, 6 => rfl

/-- One value read after another is written. -/
theorem PerEp.get_set {α : Type} (t : PerEp α) (e k : Ep) (a : α) :
    (t.set e a).get k = if k = e then a else t.get k := by
  by_cases h : k = e
  · subst h; simp
  · simp [h, PerEp.get_set_of_ne]

/-- Two tables with the same eight values are equal. -/
theorem PerEp.ext_get {α : Type} {t u : PerEp α} (h : ∀ e, t.get e = u.get e) : t = u := by
  obtain ⟨a0, a1, a2, a3, a4, a5, a6, a7⟩ := t
  obtain ⟨b0, b1, b2, b3, b4, b5, b6, b7⟩ := u
  have h0 := h 0
  have h1 := h 1
  have h2 := h 2
  have h3 := h 3
  have h4 := h 4
  have h5 := h 5
  have h6 := h 6
  have h7 := h 7
  simp only [PerEp.get] at h0 h1 h2 h3 h4 h5 h6 h7
  subst h0 h1 h2 h3 h4 h5 h6 h7
  rfl

@[simp] theorem PerEp.set_set {α : Type} (t : PerEp α) (e : Ep) (a b : α) : (t.set e a).set e b = t.set e b := by
  fin_cases e <;> rfl

@[simp] theorem PerEp.set_get_self {α : Type} (t : PerEp α) (e : Ep) : t.set e (t.get e) = t :=
  PerEp.ext_get fun k => by
    rw [PerEp.get_set]; split
    · next h => rw [h]
    · rfl

/-- Every endpoint number is in `allEps`. -/
theorem mem_allEps (e : Ep) : e ∈ allEps := by
  match e with
  | 0 | 1 | 2 | 3 | 4 | 5 | 6 | 7 => decide

end Sys2Proof.Machine
end

