-- ==== Sys2Proof/Laws/PerInstr.lean ====
section
/-! SUPPORT. One fact for each constructor of `Instr`, about the instruction as syntax (30_encoding R70, R72, R74): the
first word of an encoding carries the OP of its row, the command port takes as many words as the encoding has, and a row
of a status or event register is one word. -/

namespace Sys2Proof.Laws

/-- The OP field of a command word is the OP it was built from (30_encoding R71). -/
theorem opField_commandWord (op : BitVec 5) (e : Ep) (ty : BitVec 2) (arg : BitVec 22) :
    opField (commandWord op e ty arg) = op := by
  unfold opField commandWord
  rw [BitVec.extractLsb'_append_eq_left]

/-- The first word carries the OP of the row, and OP alone tells how many words the port takes: those of the encoding. A
row without an OP is one word. -/
def WordCount.Statement (i : Instr) : Prop :=
  (∀ op, i.op = some op → ∃ w rest, encode i = w :: rest ∧ opField w = op ∧
    (i.space = .port → commandLength w = (encode i).length)) ∧
  (i.op = none → (encode i).length = 1)

/-- A row of the command port or of the primitives. -/
theorem WordCount.of_commandWord {i : Instr} {op : BitVec 5} {e : Ep} {ty : BitVec 2} {arg : BitVec 22} {rest : List Word}
    (hop : i.op = some op) (henc : encode i = commandWord op e ty arg :: rest)
    (hlen : i.space = .port → rest.length + 1 = if op = 8 ∨ op = 9 ∨ op = 10 then 3 else 1) : WordCount.Statement i := by
  refine ⟨fun op' h => ?_, fun h => by rw [hop] at h; cases h⟩
  rw [hop] at h; cases h
  refine ⟨_, rest, henc, opField_commandWord _ _ _ _, fun hp => ?_⟩
  rw [henc, List.length_cons, hlen hp, commandLength, opField_commandWord]

/-- A row of another space has no OP. -/
theorem WordCount.of_none {i : Instr} (h : i.op = none) (hlen : (encode i).length = 1) : WordCount.Statement i :=
  ⟨fun op ho => (by rw [h] at ho; cases ho), fun _ => hlen⟩

theorem WordCount.init : WordCount.Statement .init := WordCount.of_commandWord rfl rfl (by simp [Instr.space])
theorem WordCount.connect : WordCount.Statement .connect := WordCount.of_commandWord rfl rfl (by simp [Instr.space])
theorem WordCount.disconnect : WordCount.Statement .disconnect :=
  WordCount.of_commandWord rfl rfl (by simp [Instr.space])
theorem WordCount.setRxFifoSize (words : BitVec 16) : WordCount.Statement (.setRxFifoSize words) :=
  WordCount.of_commandWord rfl rfl (by simp [Instr.space])
theorem WordCount.setTxFifoSize (e : Ep) (words : BitVec 16) : WordCount.Statement (.setTxFifoSize e words) :=
  WordCount.of_commandWord rfl rfl (by simp [Instr.space])
theorem WordCount.configureInEp (e : Ep) (ty : EpType) (mps : BitVec 11) :
    WordCount.Statement (.configureInEp e ty mps) :=
  WordCount.of_commandWord rfl rfl (by simp [Instr.space])
theorem WordCount.configureOutEp (e : Ep) (ty : EpType) (mps : BitVec 11) :
    WordCount.Statement (.configureOutEp e ty mps) :=
  WordCount.of_commandWord rfl rfl (by simp [Instr.space])
theorem WordCount.inTransfer (e : Ep) (size : BitVec 19) (buf tmo : Word) :
    WordCount.Statement (.inTransfer e size buf tmo) :=
  WordCount.of_commandWord rfl rfl (by simp [Instr.space])
theorem WordCount.outTransfer (e : Ep) (size : BitVec 19) (buf tmo : Word) :
    WordCount.Statement (.outTransfer e size buf tmo) :=
  WordCount.of_commandWord rfl rfl (by simp [Instr.space])
theorem WordCount.setupTransfer (e : Ep) (size : BitVec 19) (buf tmo : Word) :
    WordCount.Statement (.setupTransfer e size buf tmo) :=
  WordCount.of_commandWord rfl rfl (by simp [Instr.space])
theorem WordCount.setDeviceAddress (addr : BitVec 7) : WordCount.Statement (.setDeviceAddress addr) :=
  WordCount.of_commandWord rfl rfl (by simp [Instr.space])
theorem WordCount.stallInEp (e : Ep) : WordCount.Statement (.stallInEp e) :=
  WordCount.of_commandWord rfl rfl (by simp [Instr.space])
theorem WordCount.stallOutEp (e : Ep) : WordCount.Statement (.stallOutEp e) :=
  WordCount.of_commandWord rfl rfl (by simp [Instr.space])
theorem WordCount.disableInEp (e : Ep) : WordCount.Statement (.disableInEp e) :=
  WordCount.of_commandWord rfl rfl (by simp [Instr.space])
theorem WordCount.disableOutEp (e : Ep) : WordCount.Statement (.disableOutEp e) :=
  WordCount.of_commandWord rfl rfl (by simp [Instr.space])
theorem WordCount.readPacket (dst : Word) (size : Nat) : WordCount.Statement (.readPacket dst size) :=
  WordCount.of_commandWord rfl rfl (by simp [Instr.space])
theorem WordCount.writePacket (e : Ep) (src : Word) (size : Nat) : WordCount.Statement (.writePacket e src size) :=
  WordCount.of_commandWord rfl rfl (by simp [Instr.space])
theorem WordCount.dumpPacket (size : Nat) : WordCount.Statement (.dumpPacket size) :=
  WordCount.of_commandWord rfl rfl (by simp [Instr.space])
theorem WordCount.svcUsbrst : WordCount.Statement .svcUsbrst := WordCount.of_none rfl rfl
theorem WordCount.svcEnumdne : WordCount.Statement .svcEnumdne := WordCount.of_none rfl rfl
theorem WordCount.svcRxflvl : WordCount.Statement .svcRxflvl := WordCount.of_none rfl rfl
theorem WordCount.svcIepint : WordCount.Statement .svcIepint := WordCount.of_none rfl rfl
theorem WordCount.svcOepint : WordCount.Statement .svcOepint := WordCount.of_none rfl rfl
theorem WordCount.svcIisoixfr : WordCount.Statement .svcIisoixfr := WordCount.of_none rfl rfl
theorem WordCount.svcIpxfr : WordCount.Statement .svcIpxfr := WordCount.of_none rfl rfl
theorem WordCount.svcWkupint : WordCount.Statement .svcWkupint := WordCount.of_none rfl rfl
theorem WordCount.rxGlobalOutNak (epnum : BitVec 4) (bcnt : BitVec 11) (dpid : BitVec 2) (frmnum : BitVec 4) :
    WordCount.Statement (.rxGlobalOutNak epnum bcnt dpid frmnum) :=
  WordCount.of_none rfl rfl
theorem WordCount.rxOutData (epnum : BitVec 4) (bcnt : BitVec 11) (dpid : BitVec 2) (frmnum : BitVec 4) :
    WordCount.Statement (.rxOutData epnum bcnt dpid frmnum) :=
  WordCount.of_none rfl rfl
theorem WordCount.rxOutXferDone (epnum : BitVec 4) (bcnt : BitVec 11) (dpid : BitVec 2) (frmnum : BitVec 4) :
    WordCount.Statement (.rxOutXferDone epnum bcnt dpid frmnum) :=
  WordCount.of_none rfl rfl
theorem WordCount.rxSetupDone (epnum : BitVec 4) (bcnt : BitVec 11) (dpid : BitVec 2) (frmnum : BitVec 4) :
    WordCount.Statement (.rxSetupDone epnum bcnt dpid frmnum) :=
  WordCount.of_none rfl rfl
theorem WordCount.rxSetupData (epnum : BitVec 4) (bcnt : BitVec 11) (dpid : BitVec 2) (frmnum : BitVec 4) :
    WordCount.Statement (.rxSetupData epnum bcnt dpid frmnum) :=
  WordCount.of_none rfl rfl
theorem WordCount.iepXfrc (e : Ep) : WordCount.Statement (.iepXfrc e) := WordCount.of_none rfl rfl
theorem WordCount.iepTxfe (e : Ep) : WordCount.Statement (.iepTxfe e) := WordCount.of_none rfl rfl
theorem WordCount.oepXfrc (e : Ep) : WordCount.Statement (.oepXfrc e) := WordCount.of_none rfl rfl
theorem WordCount.oepStup (e : Ep) : WordCount.Statement (.oepStup e) := WordCount.of_none rfl rfl

end Sys2Proof.Laws
end

