-- ==== Sys2Proof/Laws/Step.lean ====
section
/-! SUPPORT. What one step can do, said once, and the induction that every invariant of the machine goes through. -/

namespace Sys2Proof.Machine

/-! ## Frames -/

theorem Same.refl (p : Part) (s : State) : Same p s s := by
  cases p <;> simp [Same]

theorem OnlyChanges.refl (ps : List Part) (s : State) : OnlyChanges ps s s := fun p _ => Same.refl p s

theorem Same.trans {p : Part} {s t u : State} (h1 : Same p s t) (h2 : Same p t u) : Same p s u := by
  cases p <;> simp only [Same] at h1 h2 ⊢
  all_goals first
    | exact h2.trans h1
    | exact ⟨h2.1.trans h1.1, h2.2.trans h1.2⟩
    | exact fun a => (h2 a).trans (h1 a)

theorem OnlyChanges.trans {ps : List Part} {s t u : State} (h1 : OnlyChanges ps s t) (h2 : OnlyChanges ps t u) :
    OnlyChanges ps s u := fun p hp => (h1 p hp).trans (h2 p hp)

theorem OnlyChanges.mono {ps qs : List Part} {s t : State} (h : OnlyChanges ps s t) (hpq : ∀ p ∈ ps, p ∈ qs) :
    OnlyChanges qs s t := fun p hp => h p fun hm => hp (hpq p hm)

theorem refuse_only (r : RefuseReason) (s : State) : RefusedOnly r s (refuse r s) :=
  ⟨rfl, rfl, fun p hp => by cases p <;> simp_all [Same]⟩

theorem raise_only (f : FaultReason) (s : State) : FaultedOnly f s (raise f s) :=
  ⟨raise_fault f s, fun p hp => by cases p <;> simp_all [Same]⟩

/-! ## The issuing task -/

/-- A command whose effect leaves the tasks alone, and then completes. -/
theorem advance_completed {s u : State} (ht : u.tasks = s.tasks) (hc : u.cur = s.cur) :
    Completed s.cur none s (advance u) := by
  refine ⟨fun k hk => ?_, fun j hj => ?_⟩
  · have hku : u.tasks[u.cur]? = some k := by rw [ht, hc, hk]
    have hlt : u.cur < u.tasks.length := (List.getElem?_eq_some_iff.1 hku).1
    rw [advance, onCur_tasks _ u k hku, ← hc, List.getElem?_set_self hlt]
    simp [Task.advance, Task.next]
  · rw [advance, onCur_tasks_other _ u j (by rw [hc]; exact hj), ht]

/-- A command whose effect leaves the tasks alone, and then completes with a result. -/
theorem returnRes_completed {s u : State} (v : Word) (ht : u.tasks = s.tasks) (hc : u.cur = s.cur) :
    Completed s.cur (some v) s (returnRes v u) := by
  refine ⟨fun k hk => ?_, fun j hj => ?_⟩
  · have hku : u.tasks[u.cur]? = some k := by rw [ht, hc, hk]
    have hlt : u.cur < u.tasks.length := (List.getElem?_eq_some_iff.1 hku).1
    rw [returnRes, onCur_tasks _ u k hku, ← hc, List.getElem?_set_self hlt]
    simp [Task.advance, Task.next]
  · rw [returnRes, onCur_tasks_other _ u j (by rw [hc]; exact hj), ht]

/-- An arm whose effect leaves the tasks and the clock alone, and then waits. -/
theorem wait_waits {s u : State} (dir : Dir) (e : Ep) (tmo : Word) (ht : u.tasks = s.tasks) (hc : u.cur = s.cur)
    (hn : u.now = s.now) : Waits dir e tmo s (wait dir e tmo u) := by
  refine ⟨fun k hk => ?_, fun j hj => ?_⟩
  · have hku : u.tasks[u.cur]? = some k := by rw [ht, hc, hk]
    have hlt : u.cur < u.tasks.length := (List.getElem?_eq_some_iff.1 hku).1
    rw [wait, onCur_tasks _ u k hku, ← hc, List.getElem?_set_self hlt, hn]
  · rw [wait, onCur_tasks_other _ u j (by rw [hc]; exact hj), ht]

/-! ## The step -/

/-- The state in which task t's turn runs. -/
def taskState (t : Nat) (s : State) : State := { afterTurn s with cur := t }

/-- What a turn hands on is the state itself, but for the schedule and the draws offered. -/
theorem afterTurn_only (s : State) : OnlyChanges [.draws, .sched] s (afterTurn s) := by
  intro p hp
  unfold afterTurn
  cases s.sched <;> cases p <;> simp_all [Same]

/-- Every way a step answers a next state. -/
theorem step_cases {s t : State} (h : step s = .next t) :
    (∃ j k i, (nextTurn s).move = .task j ∧ s.tasks[j]? = some k ∧ k.phase = .ready ∧
      decodeCommand (commandWords k) = .ok i ∧ exec i (taskState j s) = .next t) ∨
    (∃ j k r, (nextTurn s).move = .task j ∧ s.tasks[j]? = some k ∧ k.phase = .ready ∧
      decodeCommand (commandWords k) = .error r ∧ t = rejectWord r (taskState j s)) ∨
    (∃ j k dir e t0 tmo, (nextTurn s).move = .task j ∧ s.tasks[j]? = some k ∧ k.phase = .waiting dir e t0 tmo ∧
      t = poll dir e t0 tmo (taskState j s)) ∨
    (∃ j k, (nextTurn s).move = .task j ∧ s.tasks[j]? = some k ∧ k.phase = .done ∧ t = taskState j s) ∨
    (∃ j, (nextTurn s).move = .task j ∧ s.tasks[j]? = none ∧ t = afterTurn s) ∨
    ((nextTurn s).move = .dispatch ∧ s.inited = true ∧ (dispatch (afterTurn s)).outcome = .next t) ∨
    ((nextTurn s).move = .dispatch ∧ s.inited = false ∧ t = afterTurn s) ∨
    (∃ m, (nextTurn s).move = .bus m ∧ busEnabled (afterTurn s) m = true ∧ t = busEffect (afterTurn s) m) ∨
    (∃ m, (nextTurn s).move = .bus m ∧ busEnabled (afterTurn s) m = false ∧ t = afterTurn s) ∨
    ((nextTurn s).move = .tick ∧ t = tick (afterTurn s)) ∨
    (∃ j, (nextTurn s).move = .observe j ∧ t = observe j (afterTurn s)) := by
  have htasks : (afterTurn s).tasks = s.tasks := afterTurn_only s .tasks (by decide)
  have hinit : (afterTurn s).inited = s.inited := afterTurn_only s .inited (by decide)
  unfold step runMove at h
  split at h
  · next j hm =>
    split at h
    · next k hk =>
      rw [htasks] at hk
      unfold taskTurn at h
      split at h
      · next hp =>
        unfold runCommand at h
        split at h
        · next i hi => exact .inl ⟨j, k, i, hm, hk, hp, hi, h⟩
        · next r hr => cases h; exact .inr (.inl ⟨j, k, r, hm, hk, hp, hr, rfl⟩)
      · next dir e t0 tmo hp =>
        cases h; exact .inr (.inr (.inl ⟨j, k, dir, e, t0, tmo, hm, hk, hp, rfl⟩))
      · next hp => cases h; exact .inr (.inr (.inr (.inl ⟨j, k, hm, hk, hp, rfl⟩)))
    · next hk =>
      rw [htasks] at hk
      cases h; exact .inr (.inr (.inr (.inr (.inl ⟨j, hm, hk, rfl⟩))))
  · next hm =>
    unfold dispatchTurn at h
    rw [hinit] at h
    cases hi : s.inited with
    | true => rw [hi] at h; exact .inr (.inr (.inr (.inr (.inr (.inl ⟨hm, rfl, h⟩)))))
    | false => rw [hi] at h; cases h; exact .inr (.inr (.inr (.inr (.inr (.inr (.inl ⟨hm, rfl, rfl⟩))))))
  · next m hm =>
    cases h
    cases hb : busEnabled (afterTurn s) m with
    | true => exact .inr (.inr (.inr (.inr (.inr (.inr (.inr (.inl ⟨m, hm, hb, by simp [busTurn, hb]⟩)))))))
    | false => exact .inr (.inr (.inr (.inr (.inr (.inr (.inr (.inr (.inl ⟨m, hm, hb, by simp [busTurn, hb]⟩))))))))
  · next hm => cases h; exact .inr (.inr (.inr (.inr (.inr (.inr (.inr (.inr (.inr (.inl ⟨hm, rfl⟩)))))))))
  · next j hm => cases h; exact .inr (.inr (.inr (.inr (.inr (.inr (.inr (.inr (.inr (.inr ⟨j, hm, rfl⟩)))))))))

/-- A decoded command is a row of the command port. -/
theorem decodeCommand_port {ws : List Word} {i : Instr} (h : decodeCommand ws = .ok i) : i.space = .port := by
  cases ws with
  | nil => cases h
  | cons w rest =>
    simp only [decodeCommand] at h
    split at h
    · cases h
    split at h
    · cases h
    split at h
    · cases h
    unfold commandOf at h
    split at h
    all_goals first
      | (cases h; done)
      | (cases h; rfl)
      | (unfold withOperandWords at h; split at h <;> (cases h; try rfl))

/-- The induction of the machine: what the schedule does not touch, and every command, poll, service and bus move keeps,
every step keeps. A poll runs for the task that waits, and a bus move only where it is enabled. -/
theorem step_keeps {P : State → Prop}
    (hsched : ∀ s sched turns draws cur, P s → P { s with sched := sched, turns := turns, draws := draws, cur := cur })
    (hcmd : ∀ i s t k, i.space = .port → s.tasks[s.cur]? = some k → k.phase = .ready → P s → exec i s = .next t → P t)
    (hpoll : ∀ s k dir e t0 tmo, s.tasks[s.cur]? = some k → k.phase = .waiting dir e t0 tmo → P s →
      P (poll dir e t0 tmo s))
    (hdisp : ∀ s, s.inited = true → P s → (dispatch s).Within P)
    (hbus : ∀ m s, busEnabled s m = true → P s → P (busEffect s m))
    (htick : ∀ s, P s → P (tick s)) (hrefuse : ∀ r s, P s → P (refuse r s))
    (hobserve : ∀ n s, P s → P (raise (.unwrittenResult n) s))
    {s t : State} (hs : P s) (h : step s = .next t) : P t := by
  have hafter : P (afterTurn s) := by
    unfold afterTurn
    cases s.sched with
    | nil => exact hsched s _ _ _ _ hs
    | cons turn rest => exact hsched s _ _ _ _ hs
  have htasks : (afterTurn s).tasks = s.tasks := afterTurn_only s .tasks (by decide)
  have hstate : ∀ j, P (taskState j s) := fun j => hsched _ _ _ _ j hafter
  have hcur : ∀ j k, s.tasks[j]? = some k → (taskState j s).tasks[(taskState j s).cur]? = some k := by
    intro j k hk; simpa [taskState, htasks] using hk
  rcases step_cases h with ⟨j, k, i, -, hk, hp, hi, he⟩ | ⟨j, k, r, -, hk, hp, hr, rfl⟩ |
    ⟨j, k, dir, e, t0, tmo, -, hk, hp, rfl⟩ | ⟨j, k, -, -, -, rfl⟩ | ⟨j, -, -, rfl⟩ | ⟨-, hi, hd⟩ | ⟨-, -, rfl⟩ |
    ⟨m, -, hb, rfl⟩ | ⟨m, -, -, rfl⟩ | ⟨-, rfl⟩ | ⟨j, -, rfl⟩
  · exact hcmd i _ t k (decodeCommand_port hi) (hcur j k hk) hp (hstate j) he
  · unfold rejectWord
    split
    · exact hrefuse _ _ (hstate j)
    · exact hstate j
  · exact hpoll _ k dir e t0 tmo (hcur j k hk) hp (hstate j)
  · exact hstate j
  · exact hafter
  · have hin : (afterTurn s).inited = true := by rw [afterTurn_only s .inited (by decide), hi]
    exact (hdisp _ hin hafter).outcome hd
  · exact hafter
  · exact hbus m _ hb hafter
  · exact hafter
  · exact htick _ hafter
  · unfold observe
    split
    · split
      · exact hobserve j _ hafter
      · exact hafter
    · exact hafter

end Sys2Proof.Machine
end

