-- ==== Sys2Proof/Laws/Port.lean ====
section
/-! SUPPORT. What a command of the port can do, said once: the inversion that every claim about "any command" goes
through. -/

namespace Sys2Proof.Machine

theorem Descriptor.isArmed_iff (d : Descriptor) : d.isArmed = true ↔ d.status = .armed := by
  simp [Descriptor.isArmed]

theorem Descriptor.not_isArmed_iff (d : Descriptor) : d.isArmed = false ↔ d.status ≠ .armed := by
  simp [Descriptor.isArmed]

/-- The state a command leaves, by what it did. -/
inductive PortEffect (s : State) : State → Prop where
  | refused (r : RefuseReason) : PortEffect s (refuse r s)
  | error (v : Word) : PortEffect s (returnRes v s)
  | race (a : Word) : PortEffect s (raise (.bufferRace a) s)
  | init : s.inited = false → PortEffect s (advance (bringUp s))
  | connect : s.inited = true → PortEffect s (advance (s.setCore { s.core with
      sdis := false, clkgate := false, gint := s.cfg.connectRestoresGint || s.core.gint }))
  | disconnect : s.inited = true → PortEffect s (advance { s with
      core := { s.core with sdis := true, clkgate := true, gint := false }, busActive := false })
  | configureIn (e : Ep) (ty : EpType) (mps v : BitVec 11) : s.inited = true → (s.din.get e).status ≠ .armed →
      mpsizFor s.cfg e ty mps = .ok v → PortEffect s (advance (mapInEp e ty v s))
  | configureOut (e : Ep) (ty : EpType) (mps v : BitVec 11) : s.inited = true → (s.dout.get e).status ≠ .armed →
      mpsizFor s.cfg e ty mps = .ok v → PortEffect s (advance (mapOutEp e ty v s))
  | setRx (w : Nat) : s.inited = true → s.rxq = [] → (∀ k, (s.dout.get k).status ≠ .armed) →
      allocOk s.cfg.fifoRamWords.toNat w (depthsOf s.core.txsa) (depthsOf s.core.txfd) = true →
      PortEffect s (advance (s.setCore { s.core with rxfd := BitVec.ofNat 16 w }))
  | setTx (e : Ep) (sa w : Nat) : s.inited = true → s.txq.get e = [] → (s.din.get e).status ≠ .armed →
      allocOk s.cfg.fifoRamWords.toNat s.core.rxfd.toNat ((depthsOf s.core.txsa).set e sa)
        ((depthsOf s.core.txfd).set e w) = true →
      PortEffect s (advance (s.setCore { s.core with
        txsa := s.core.txsa.set e (BitVec.ofNat 16 sa), txfd := s.core.txfd.set e (BitVec.ofNat 16 w) }))
  | armIn (e : Ep) (size : BitVec 19) (buf tmo : Word) (t : State) : inVerdict e size.toNat buf s = .pass →
      armIn e size buf tmo s = .go t → PortEffect s t
  | armOut (e : Ep) (size : BitVec 19) (buf tmo : Word) : outVerdict e size.toNat buf s = .pass →
      PortEffect s (armOut e size buf tmo s)
  | armSetup (e : Ep) (size : BitVec 19) (buf tmo : Word) : setupVerdict e size.toNat buf s = .pass →
      PortEffect s (armSetup e size buf tmo s)
  | address (addr : BitVec 7) : s.inited = true →
      PortEffect s (advance ((s.setCore { s.core with dad := addr }).emit (.addressAssigned addr)))
  | stallIn (e : Ep) : s.inited = true → PortEffect s (advance (s.setIep e { s.iep.get e with stall := true }))
  | stallOut (e : Ep) : s.inited = true → PortEffect s (advance (s.setOep e { s.oep.get e with stall := true }))
  | disableIn (e : Ep) : s.inited = true → PortEffect s (advance (disableIn e s))
  | disableOut (e : Ep) : s.inited = true → PortEffect s (advance (disableOut e s))

/-- An arm of an IN transfer goes on or stops; it never ends early. -/
theorem armIn_cases (e : Ep) (size : BitVec 19) (buf tmo : Word) (s : State) :
    (∃ t, armIn e size buf tmo s = .go t) ∨ armIn e size buf tmo s = .stop .addressSpace := by
  unfold armIn
  simp only
  split
  · rcases writePacket_cases e buf.toNat size.toNat ((s.setDin e (armedDescriptor buf size)).setIep e
      (armInBank (s.iep.get e) size (packetCount size.toNat (mpsIn s e)))) with ⟨-, h⟩ | ⟨-, h⟩
    · rw [h]; exact .inl ⟨_, rfl⟩
    · rw [h]; exact .inr rfl
  · exact .inl ⟨_, rfl⟩

theorem directOp_effect {f : State → State} {s t : State} (h : Host.Outcome.next (directOp f s) =
    (Host.Outcome.next t : Host.Outcome State Fault Refusal))
    (hf : s.inited = true → PortEffect s (advance (f s))) : PortEffect s t := by
  cases h
  unfold directOp
  cases hi : s.inited with
  | false => exact .refused .notInited
  | true => exact hf hi

theorem armStep_effect {v : ArmVerdict} {arm : State → Ctl} {s t : State}
    (h : (armStep v arm s).outcome = .next t) (hv : ∀ f, v = .faulted f → ∃ a, f = .bufferRace a)
    (hp : v = .pass → (arm s).outcome = .next t → PortEffect s t) : PortEffect s t := by
  rcases armStep_cases v arm s with ⟨r, -, hr⟩ | ⟨c, -, hr⟩ | ⟨f, hf, hr⟩ | ⟨hpass, hr⟩
  · rw [hr] at h; cases h; exact .refused r
  · rw [hr] at h; cases h; exact .error c
  · rw [hr] at h; cases h
    obtain ⟨a, rfl⟩ := hv f hf
    exact .race a
  · rw [hr] at h; exact hp hpass h

theorem armVerdict_faulted {inited configured controlOnly armed : Bool} {limit : Option RefuseReason} {space buf size : Nat}
    {race : Option Nat} (f : FaultReason)
    (h : armVerdict inited configured controlOnly armed limit space buf size race = .faulted f) : ∃ a, f = .bufferRace a := by
  unfold armVerdict at h
  repeat' split at h
  all_goals first
    | (cases h; done)
    | (cases h; exact ⟨_, rfl⟩)

/-- Every command of the port does one of these. -/
theorem port_effect {i : Instr} {s t : State} (hi : i.space = .port) (h : exec i s = .next t) : PortEffect s t := by
  cases i with
  | init =>
    cases h
    unfold initBlock
    cases hs : s.inited with
    | true => exact .refused .reInit
    | false =>
      cases s.draws.initSpinOk with
      | false => exact .error codeFatal
      | true => exact .init hs
  | connect =>
    cases h
    unfold connectBus
    cases hs : s.inited with
    | true => exact .connect hs
    | false => exact .refused .notInited
  | disconnect =>
    cases h
    unfold disconnectBus
    by_cases hs : s.inited = true
    · rw [if_neg (by simp [hs])]; exact .disconnect hs
    · rw [if_pos (by simp [hs])]; exact .refused .notInited
  | setRxFifoSize words =>
    cases h
    unfold setRxFifoSize
    cases hs : s.inited with
    | false => exact .refused .notInited
    | true =>
      simp only [Bool.not_true, Bool.false_eq_true, if_false]
      split
      · exact .refused .resizeBusy
      · next hb =>
        simp only [Bool.or_eq_true, Bool.not_eq_true', List.any_eq_true, not_or, not_exists, not_and,
          Bool.not_eq_false, List.isEmpty_iff] at hb
        split
        · next ha => exact .setRx _ hs hb.1 (fun k hk => hb.2 k (mem_allEps k) ((Descriptor.isArmed_iff _).2 hk)) ha
        · exact .refused .fifoAlloc
  | setTxFifoSize e words =>
    cases h
    unfold setTxFifoSize
    cases hs : s.inited with
    | false => exact .refused .notInited
    | true =>
      simp only [Bool.not_true, Bool.false_eq_true, if_false]
      split
      · exact .refused .resizeBusy
      · next hb =>
        simp only [Bool.or_eq_true, Bool.not_eq_true', not_or, Bool.not_eq_false, Bool.not_eq_true,
          List.isEmpty_iff] at hb
        split
        · next ha => exact .setTx e _ _ hs hb.1 ((Descriptor.not_isArmed_iff _).1 hb.2) ha
        · exact .refused .fifoAlloc
  | configureInEp e ty mps =>
    cases h
    unfold configureInEp
    cases hs : s.inited with
    | false => exact .refused .notInited
    | true =>
      cases ha : (s.din.get e).isArmed with
      | true => exact .refused .reconfigureInFlight
      | false =>
        simp only [Bool.not_true, Bool.false_eq_true, if_false]
        split
        · exact .refused _
        · next v hv => exact .configureIn e ty mps v hs ((Descriptor.not_isArmed_iff _).1 ha) hv
  | configureOutEp e ty mps =>
    cases h
    unfold configureOutEp
    cases hs : s.inited with
    | false => exact .refused .notInited
    | true =>
      cases ha : (s.dout.get e).isArmed with
      | true => exact .refused .reconfigureInFlight
      | false =>
        simp only [Bool.not_true, Bool.false_eq_true, if_false]
        split
        · exact .refused _
        · next v hv => exact .configureOut e ty mps v hs ((Descriptor.not_isArmed_iff _).1 ha) hv
  | inTransfer e size buf tmo =>
    refine armStep_effect h (fun f => armVerdict_faulted f) fun hv ha => ?_
    rcases armIn_cases e size buf tmo s with ⟨u, hu⟩ | hu
    · rw [hu] at ha; cases ha; exact .armIn e size buf tmo _ hv hu
    · rw [hu] at ha; cases ha
  | outTransfer e size buf tmo =>
    refine armStep_effect h (fun f => armVerdict_faulted f) fun hv ha => ?_
    cases ha; exact .armOut e size buf tmo hv
  | setupTransfer e size buf tmo =>
    refine armStep_effect h (fun f => armVerdict_faulted f) fun hv ha => ?_
    cases ha; exact .armSetup e size buf tmo hv
  | setDeviceAddress addr => exact directOp_effect h fun hs => .address addr hs
  | stallInEp e => exact directOp_effect h fun hs => .stallIn e hs
  | stallOutEp e => exact directOp_effect h fun hs => .stallOut e hs
  | disableInEp e => exact directOp_effect h fun hs => .disableIn e hs
  | disableOutEp e => exact directOp_effect h fun hs => .disableOut e hs
  | readPacket _ _ | writePacket _ _ _ | dumpPacket _ => cases hi
  | svcUsbrst | svcEnumdne | svcRxflvl | svcIepint | svcOepint | svcIisoixfr | svcIpxfr | svcWkupint => cases hi
  | rxGlobalOutNak _ _ _ _ | rxOutData _ _ _ _ | rxOutXferDone _ _ _ _ => cases hi
  | rxSetupDone _ _ _ _ | rxSetupData _ _ _ _ => cases hi
  | iepXfrc _ | iepTxfe _ | oepXfrc _ | oepStup _ => cases hi

end Sys2Proof.Machine
end

