-- ==== Sys2Proof/Laws/Race.lean ====
section
/-! SUPPORT. The checks of an arm step in the terms of the claims: the lowest owned address (20_memory R54) and what check
(5) refuses (43_transfer_api R120). -/

namespace Sys2Proof.Machine

theorem overlapAt_eq_none (b1 n1 b2 n2 : Nat) :
    overlapAt b1 n1 b2 n2 = none ↔ ∀ a, ¬ (b1 ≤ a ∧ a < b1 + n1 ∧ b2 ≤ a ∧ a < b2 + n2) := by
  unfold overlapAt
  split
  · simp only [reduceCtorEq, false_iff, not_forall, not_not]
    exact ⟨max b1 b2, by omega, by omega, by omega, by omega⟩
  · simp only [true_iff]
    intro a ha
    omega

theorem overlapAt_eq_some (b1 n1 b2 n2 x : Nat) :
    overlapAt b1 n1 b2 n2 = some x ↔ (b1 ≤ x ∧ x < b1 + n1 ∧ b2 ≤ x ∧ x < b2 + n2) ∧
      ∀ a, a < x → ¬ (b1 ≤ a ∧ a < b1 + n1 ∧ b2 ≤ a ∧ a < b2 + n2) := by
  unfold overlapAt
  split
  · simp only [Option.some.injEq]
    constructor
    · rintro rfl; exact ⟨by omega, fun a h1 h2 => by omega⟩
    · rintro ⟨h1, h2⟩
      by_contra hne
      exact h2 (max b1 b2) (by omega) (by omega)
  · simp only [reduceCtorEq, false_iff, not_and]
    intro h1
    omega

/-- The lowest address over a list of descriptors. -/
theorem foldr_overlap (ds : List Descriptor) (buf size : Nat) :
    let r := ds.foldr (fun d acc => minAddr (overlapAt buf size d.buf.toNat d.req.toNat) acc) none
    let shared := fun a => buf ≤ a ∧ a < buf + size ∧ ∃ d ∈ ds, d.buf.toNat ≤ a ∧ a < d.buf.toNat + d.req.toNat
    (r = none → ∀ a, ¬ shared a) ∧ (∀ x, r = some x → shared x ∧ ∀ a, a < x → ¬ shared a) := by
  induction ds with
  | nil => simp
  | cons d ds ih =>
    simp only [List.foldr_cons] at ih ⊢
    generalize (ds.foldr (fun d acc => minAddr (overlapAt buf size d.buf.toNat d.req.toNat) acc) none) = r at ih ⊢
    cases hO : overlapAt buf size d.buf.toNat d.req.toNat with
    | none =>
      have h1 := (overlapAt_eq_none _ _ _ _).1 hO
      refine ⟨fun hr a ha => ?_, fun x hx => ?_⟩
      · simp only [minAddr] at hr
        subst hr
        obtain ⟨h2, h3, d', hd, h4, h5⟩ := ha
        rcases List.mem_cons.1 hd with rfl | hd
        · exact h1 a ⟨h2, h3, h4, h5⟩
        · exact ih.1 rfl a ⟨h2, h3, d', hd, h4, h5⟩
      · simp only [minAddr] at hx
        obtain ⟨⟨h2, h3, d', hd, h4, h5⟩, h6⟩ := ih.2 x hx
        refine ⟨⟨h2, h3, d', List.mem_cons_of_mem _ hd, h4, h5⟩, fun a ha hh => ?_⟩
        obtain ⟨h2, h3, d', hd, h4, h5⟩ := hh
        rcases List.mem_cons.1 hd with rfl | hd
        · exact h1 a ⟨h2, h3, h4, h5⟩
        · exact h6 a ha ⟨h2, h3, d', hd, h4, h5⟩
    | some y =>
      have h1 := (overlapAt_eq_some _ _ _ _ _).1 hO
      cases r with
      | none =>
        refine ⟨fun hr => by simp [minAddr] at hr, fun x hx => ?_⟩
        simp only [minAddr, Option.some.injEq] at hx
        subst hx
        refine ⟨⟨h1.1.1, h1.1.2.1, d, by simp, h1.1.2.2⟩, fun a ha hh => ?_⟩
        obtain ⟨h2, h3, d', hd, h4, h5⟩ := hh
        rcases List.mem_cons.1 hd with rfl | hd
        · exact h1.2 a ha ⟨h2, h3, h4, h5⟩
        · exact ih.1 rfl a ⟨h2, h3, d', hd, h4, h5⟩
      | some z =>
        refine ⟨fun hr => by simp [minAddr] at hr, fun x hx => ?_⟩
        simp only [minAddr, Option.some.injEq] at hx
        obtain ⟨⟨g2, g3, g', gd, g4, g5⟩, g6⟩ := ih.2 z rfl
        subst hx
        refine ⟨?_, fun a ha hh => ?_⟩
        · rcases Nat.le_total y z with h | h
          · rw [Nat.min_eq_left h]; exact ⟨h1.1.1, h1.1.2.1, d, by simp, h1.1.2.2⟩
          · rw [Nat.min_eq_right h]; exact ⟨g2, g3, g', List.mem_cons_of_mem _ gd, g4, g5⟩
        · obtain ⟨h2, h3, d', hd, h4, h5⟩ := hh
          rcases List.mem_cons.1 hd with rfl | hd
          · exact h1.2 a (by omega) ⟨h2, h3, h4, h5⟩
          · exact g6 a (by omega) ⟨h2, h3, d', hd, h4, h5⟩

theorem mem_armedOf (t : PerEp Descriptor) (d : Descriptor) :
    d ∈ armedOf t ↔ ∃ e, t.get e = d ∧ d.status = .armed := by
  simp only [armedOf, List.mem_filter, List.mem_map, Descriptor.isArmed, decide_eq_true_eq]
  constructor
  · rintro ⟨⟨e, -, rfl⟩, h⟩; exact ⟨e, rfl, h⟩
  · rintro ⟨e, rfl, h⟩; exact ⟨⟨e, mem_allEps e, rfl⟩, h⟩

/-- An address is owned when a rival's buffer has it. -/
theorem owned_iff_rival (s : State) (dir : Dir) (buf size a : Nat) :
    Owned s dir buf size a ↔
      buf ≤ a ∧ a < buf + size ∧ ∃ d ∈ rivals s dir, d.buf.toNat ≤ a ∧ a < d.buf.toNat + d.req.toNat := by
  unfold Owned InArmed
  refine and_congr_right fun _ => and_congr_right fun _ => ?_
  cases dir with
  | inn =>
    simp only [rivals, mem_armedOf, reduceCtorEq, false_and, or_false]
    constructor
    · rintro ⟨e, h1, h2, h3⟩; exact ⟨_, ⟨e, rfl, h1⟩, h2, h3⟩
    · rintro ⟨d, ⟨e, rfl, h1⟩, h2, h3⟩; exact ⟨e, h1, h2, h3⟩
  | out =>
    simp only [rivals, List.mem_append, mem_armedOf, true_and]
    constructor
    · rintro (⟨e, h1, h2, h3⟩ | ⟨e, h1, h2, h3⟩)
      · exact ⟨_, .inl ⟨e, rfl, h1⟩, h2, h3⟩
      · exact ⟨_, .inr ⟨e, rfl, h1⟩, h2, h3⟩
    · rintro ⟨d, ⟨e, rfl, h1⟩ | ⟨e, rfl, h1⟩, h2, h3⟩
      · exact .inl ⟨e, h1, h2, h3⟩
      · exact .inr ⟨e, h1, h2, h3⟩

/-- The race check finds nothing exactly when no byte is owned (20_memory R54). -/
theorem raceAddr_eq_none (s : State) (dir : Dir) (buf size : Nat) :
    raceAddr s dir buf size = none ↔ ∀ a, ¬ Owned s dir buf size a := by
  have h := foldr_overlap (rivals s dir) buf size
  constructor
  · intro hr a ha; exact h.1 hr a ((owned_iff_rival _ _ _ _ _).1 ha)
  · intro hn
    cases hr : raceAddr s dir buf size with
    | none => rfl
    | some x => exact absurd ((owned_iff_rival _ _ _ _ _).2 (h.2 x hr).1) (hn x)

/-- The race check names the lowest owned address (20_memory R54). -/
theorem raceAddr_of_lowestOwned {s : State} {dir : Dir} {buf size x : Nat} (hx : LowestOwned s dir buf size x) :
    raceAddr s dir buf size = some x := by
  have h := foldr_overlap (rivals s dir) buf size
  cases hr : raceAddr s dir buf size with
  | none => exact absurd hx.1 ((raceAddr_eq_none _ _ _ _).1 hr x)
  | some y =>
    have h2 := h.2 y hr
    have hy : Owned s dir buf size y := (owned_iff_rival _ _ _ _ _).2 h2.1
    rcases Nat.lt_trichotomy x y with hlt | rfl | hgt
    · exact absurd ((owned_iff_rival _ _ _ _ _).1 hx.1) (h2.2 x hlt)
    · rfl
    · exact absurd hy (hx.2 y hgt)

/-- Check (5) of an IN arm answers what the claim's predicate says. -/
theorem inLimit_eq_some (s : State) (e : Ep) (size : Nat) (r : RefuseReason) :
    inLimit s e size = some r ↔ InLimit s e size r := by
  unfold inLimit InLimit
  simp only []
  split
  · simp_all [eq_comm]
  · split <;> simp_all [eq_comm]

theorem inLimit_eq_none (s : State) (e : Ep) (size : Nat) : inLimit s e size = none ↔ ∀ r, ¬ InLimit s e size r := by
  simp only [← inLimit_eq_some]
  cases inLimit s e size <;> simp

end Sys2Proof.Machine
end

