-- ==== Sys2Proof/Laws/Receive.lean ====
section
/-! SUPPORT. Packets as claims speak of them: what packed words carry, the entries of the receive FIFO, the receive
service's own parts, and what the OutEndpoint service does at each endpoint. -/

namespace Sys2Proof.Machine

theorem byteAt_toNat (w : Word) (k : Nat) : (byteAt w k).toNat = w.toNat / 2 ^ (8 * k) % 2 ^ 8 := by
  simp [byteAt, BitVec.extractLsb'_toNat, Nat.shiftRight_eq_div_pow]

/-- Packed bytes are carried little-endian, whatever the padding (20_memory R56, R58). -/
theorem carries_packBytes (pad : Word) {bs : List Byte} {n : Nat} {f : Nat → Byte} (hl : bs.length = n)
    (hf : ∀ i, i < n → bs[i]? = some (f i)) : Carries (packBytes pad bs) n f := by
  refine ⟨by rw [packBytes_length, hl], fun i hi => ?_⟩
  have h2 : (unpackWords (packBytes pad bs))[i]? = some (f i) := by
    have : ((unpackWords (packBytes pad bs)).take bs.length)[i]? = some (f i) := by
      rw [unpackWords_packBytes]; exact hf i hi
    rwa [List.getElem?_take_of_lt (by omega)] at this
  rw [unpackWords_getElem?] at h2
  cases h3 : (packBytes pad bs)[i / 4]? with
  | none => rw [h3] at h2; simp at h2
  | some w => rw [h3] at h2; simp at h2; exact ⟨w, rfl, h2⟩

/-! ## Whole entries (20_memory R61) -/

theorem Framed.append {a b : List Word} (ha : Framed a) (hb : Framed b) : Framed (a ++ b) := by
  induction ha with
  | nil => exact hb
  | entry w data rest hl _ ih => rw [List.cons_append, List.append_assoc]; exact .entry w data _ hl ih

theorem Framed.one (w : Word) {ws : List Word} (h : ws.length = wordsFor (rxBcnt w).toNat) : Framed (w :: ws) := by
  have := Framed.entry w ws [] h .nil
  rwa [List.append_nil] at this

/-- Behind a status word there are at least the words of its entry, and whole entries after them. -/
theorem Framed.uncons {w : Word} {q : List Word} (h : Framed (w :: q)) :
    wordsFor (rxBcnt w).toNat ≤ q.length ∧ Framed (q.drop (wordsFor (rxBcnt w).toNat)) := by
  cases h with
  | entry _ data rest hl hr => simpa [← hl] using hr

theorem rxBcnt_rxStatusWord (epnum : BitVec 4) (bcnt : BitVec 11) (dpid : BitVec 2) (kind frm : BitVec 4) :
    rxBcnt (rxStatusWord epnum bcnt dpid kind frm) = bcnt := by
  unfold rxBcnt rxStatusWord
  apply BitVec.eq_of_getLsbD_eq
  intro i hi
  have h0 : 4 + i < 25 := by omega
  have h1 : 4 + i < 21 := by omega
  have h2 : 4 + i < 17 := by omega
  have h3 : 4 + i < 15 := by omega
  simp only [BitVec.getLsbD_extractLsb', BitVec.getLsbD_append]
  simp [h0, h1, h2, h3, hi]

theorem mpsOut_le (s : State) (e : Ep) : mpsOut s e ≤ 2047 := by
  unfold mpsOut mpsDecode mpsOfCode
  repeat' split
  all_goals omega

/-! ## The receive service (42_bus_event_handler R108) -/

theorem epOfNum_eq {n : BitVec 4} {e : Ep} (h : n.toNat = e.val) : epOfNum n = some e := by
  unfold epOfNum
  have := e.isLt
  rw [dif_pos (by omega)]
  congr 1
  exact Fin.ext h

/-- The service's choice by kind is the decoder's: an entry of a kind is its row, and a reserved kind is dumped. -/
theorem receiveEntry_outcome (w : Word) (s : State) :
    (∀ i, decodeRx w = .ok i → (receiveEntry w s).outcome = exec i s) ∧
    (∀ r, decodeRx w = .error r → (receiveEntry w s).outcome = exec (.dumpPacket (rxBcnt w).toNat) s) := by
  have hk : ∀ n : Nat, n < 16 → (rxPktsts w).toNat = n → rxPktsts w = BitVec.ofNat 4 n := by
    intro n hn h; rw [← h]; simp
  have hlt := (rxPktsts w).isLt
  generalize hp : (rxPktsts w).toNat = p at *
  unfold decodeRx receiveEntry
  rw [hp]
  have hq := hk p hlt rfl
  have hlt : p < 16 := hlt
  clear hp hk
  interval_cases p
  all_goals
    rw [hq]
    refine ⟨fun i hi => ?_, fun r hr => ?_⟩ <;> first | (cases hi; rfl) | (cases hr; rfl) | cases hi | cases hr

/-- A kept entry that is whole consumes exactly its words and writes exactly the kept bytes (90_conflicts C6). -/
theorem keepData_eq (e : Ep) (bcnt n : Nat) (s : State) (hn : n ≤ bcnt) (hq : wordsFor bcnt ≤ s.rxq.length)
    (hsp : (s.dout.get e).buf.toNat + (s.dout.get e).off.toNat + n ≤ memBytes s.cfg) :
    keepData e bcnt n s = .go ((advanceDout e n (s.setMem (s.mem.writeBytes
      ((s.dout.get e).buf.toNat + (s.dout.get e).off.toNat) ((unpackWords (s.rxq.take (wordsFor n))).take n)))).setRxq
        (s.rxq.drop (wordsFor bcnt))) := by
  have h1 := wordsFor_mono hn
  unfold keepData
  rcases readPacket_cases ((s.dout.get e).buf.toNat + (s.dout.get e).off.toNat) n s with
    ⟨h, -⟩ | ⟨-, -, h⟩ | ⟨-, h, -⟩
  · omega
  · rw [h, Ctl.bind_go]
    rcases dumpPacket_cases (4 * (wordsFor bcnt - wordsFor n)) (advanceDout e n ((s.setMem (s.mem.writeBytes
      ((s.dout.get e).buf.toNat + (s.dout.get e).off.toNat) ((unpackWords (s.rxq.take (wordsFor n))).take n))).setRxq
        (s.rxq.drop (wordsFor n)))) with ⟨h2, h3⟩ | ⟨h2, -⟩
    · rw [h3]
      simp [advanceDout, State.setRxq, State.setDout, State.setMem]
      congr 1; omega
    · simp [advanceDout] at h2; omega
  · omega

/-! ## The OutEndpoint service (42_bus_event_handler R111) -/

/-- An endpoint's part of the service, whatever the other endpoints of the loop are. -/
theorem forEps_outEndpoint (old : PerEp OutBank) (es : List Ep) (hn : es.Nodup) (s : State) :
    ∃ t, forEps es (fun e => outEndpoint (old.get e) e) s = .go t ∧ t = { s with oep := t.oep, dout := t.dout } ∧
      ∀ e,
        let serviced := e ∈ es ∧ outPendingSince (old.get e) s e = true
        (¬ serviced → t.oep.get e = s.oep.get e ∧ t.dout.get e = s.dout.get e) ∧
        (serviced → t.oep.get e = { s.oep.get e with
            xfrc := (s.oep.get e).xfrc && !(old.get e).xfrc, stup := (s.oep.get e).stup && !(old.get e).stup } ∧
          t.dout.get e = (s.dout.get e).completed) := by
  induction es generalizing s with
  | nil => exact ⟨s, rfl, rfl, fun _ => ⟨fun _ => ⟨rfl, rfl⟩, fun h => absurd h.1 (by simp)⟩⟩
  | cons a es ih =>
    rw [List.nodup_cons] at hn
    obtain ⟨u, hu⟩ : ∃ u, outEndpoint (old.get a) a s = .go u := ⟨_, rfl⟩
    have hrest : u = { s with oep := u.oep, dout := u.dout } := by
      unfold outEndpoint at hu; split at hu <;> cases hu <;> rfl
    have hother : ∀ e, e ≠ a → u.oep.get e = s.oep.get e ∧ u.dout.get e = s.dout.get e := by
      intro e he
      unfold outEndpoint at hu
      split at hu <;> cases hu <;> simp [outEvent, PerEp.get_set_of_ne _ _ _ _ he]
    obtain ⟨t, h1, h2, h3⟩ := ih hn.2 u
    refine ⟨t, by rw [forEps_cons, hu]; exact h1, h2.trans (by rw [hrest]), fun e => ?_⟩
    by_cases he : e = a
    · subst he
      have h := (h3 e).1 fun h => hn.1 h.1
      rw [h.1, h.2]
      unfold outEndpoint at hu
      by_cases hp : outPendingSince (old.get e) s e = true
      · rw [if_pos hp] at hu; cases hu; simp [outEvent, hp]
      · rw [if_neg hp] at hu; cases hu; simp [hp]
    · have hp : outPendingSince (old.get e) u e = outPendingSince (old.get e) s e := by
        unfold outPendingSince outXfrcFlag outStupFlag
        rw [(hother e he).1, hrest]
      have h := h3 e
      simp only [hp, (hother e he).1, (hother e he).2] at h
      simpa [he] using h

/-- The service goes on, and at each endpoint it services just what was flagged when the status was sampled and still is:
an Armed descriptor completes and both bits are cleared, but for one raised since, which stays (R109, 60_exceptions
R157). -/
theorem outService_effect (old : PerEp OutBank) (s : State) :
    ∃ t, outService old s = .go t ∧ t = { s with oep := t.oep, dout := t.dout } ∧
      ∀ e, (outPendingSince (old.get e) s e = false → t.oep.get e = s.oep.get e ∧ t.dout.get e = s.dout.get e) ∧
        (outPendingSince (old.get e) s e = true → t.oep.get e = { s.oep.get e with
            xfrc := (s.oep.get e).xfrc && !(old.get e).xfrc, stup := (s.oep.get e).stup && !(old.get e).stup } ∧
          t.dout.get e = (s.dout.get e).completed) := by
  obtain ⟨t, h1, h2, h3⟩ := forEps_outEndpoint old allEps (by decide) s
  refine ⟨t, h1, h2, fun e => ?_⟩
  have he : e ∈ allEps := by fin_cases e <;> decide
  have h := h3 e
  exact ⟨fun hp => h.1 fun hh => by simp [hp] at hh, fun hp => h.2 ⟨he, hp⟩⟩

end Sys2Proof.Machine
end

