-- ==== Sys2Proof/Laws/Registers.lean ====
section
/-! SUPPORT. The rules that clear or set NAK, GINNAK and EPENA or flush a FIFO do what writing the command bits of the
registers does (30_encoding R86, R87); the bits of a register word. -/

namespace Sys2Proof.Machine

/-! ## Bits of a register word -/

theorem flagAt_getLsbD (b : Bool) (k j : Nat) :
    (flagAt b k).getLsbD j = (b && decide (j = k) && decide (k < 32)) := by
  unfold flagAt
  cases b <;> simp [BitVec.getLsbD_twoPow]
  by_cases h : k = j <;> simp [h]
  omega

theorem fieldAt_getLsbD {n : Nat} (v : BitVec n) (lo j : Nat) :
    (fieldAt v lo).getLsbD j = (decide (j < 32) && decide (lo ≤ j) && v.getLsbD (j - lo)) := by
  unfold fieldAt
  simp only [BitVec.getLsbD_shiftLeft, BitVec.getLsbD_setWidth]
  by_cases h1 : j < 32
  · by_cases h2 : lo ≤ j
    · have h3 : ¬ j < lo := by omega
      have h4 : j - lo < 32 := by omega
      simp [h1, h2, h3, h4]
    · have h3 : j < lo := by omega
      simp [h1, h2, h3]
  · simp [h1]

/-! ## Command bits -/

/-- DISABLE_IN_EP and the recovery of an IN timeout disable through EPDIS and SNAK (43_transfer_api R124, R131). -/
theorem disableIn_eq_bits (e : Ep) (s : State) : actAll [.epdis .inn e, .snak .inn e] s = some (disableIn e s) := by
  simp [actAll, CommandBit.act, clearEpena, writeNak, disableIn, State.setIep]

/-- DISABLE_OUT_EP and the recovery of an OUT timeout likewise (43_transfer_api R124, R132). -/
theorem disableOut_eq_bits (e : Ep) (s : State) : actAll [.epdis .out e, .snak .out e] s = some (disableOut e s) := by
  simp [actAll, CommandBit.act, clearEpena, writeNak, disableOut, State.setOep]

/-- A flush by an endpoint's number empties that endpoint's transmit FIFO. -/
theorem flushTx_ep (e : Ep) (s : State) : flushTx (BitVec.ofNat 5 e.val) s = s.setTxq e [] := by
  fin_cases e <;> rfl

/-- The recovery of an IN timeout ends with the flush of its FIFO (43_transfer_api R124). -/
theorem timeoutRecover_eq_bits (e : Ep) (s : State) :
    actAll [.epdis .inn e, .snak .inn e, .txfflsh (BitVec.ofNat 5 e.val)] s = some (timeoutRecover .inn e s) := by
  simp [actAll, CommandBit.act, clearEpena, writeNak, timeoutRecover, disableIn, flushTx_ep, State.setIep]

/-- The Reset service and `init` leave what the two flush bits leave, all FIFOs at once (42_bus_event_handler R106,
44_bus_control R133). -/
theorem flush_bits (s : State) : actAll [.rxfflsh, .txfflsh txfnumAll] s = some { s with rxq := [], txq := .all [] } :=
  rfl

/-- EnumerationDone clears GINNAK as CGINAK does (42_bus_event_handler R107), and `init` leaves it as SGINAK does. -/
theorem enumDone_eq_bits (s : State) : actAll [.cginak] (enumDone s) = some (enumDone s) ∧
    actAll [.sginak] (bringUp s) = some (bringUp s) := ⟨rfl, rfl⟩

end Sys2Proof.Machine
end

