-- ==== Sys2Proof/Laws/Run.lean ====
section
/-! SUPPORT. The clock and the ticks of a run: what liveness claims count with (10_state R48, 45_bus_agent R146, R147). -/

namespace Sys2Proof.Machine

theorem clockPeriod_pos (cfg : Config) : 0 < clockPeriod cfg := Nat.two_pow_pos _

theorem elapsed_lt (cfg : Config) (now t0 : Nat) : elapsed cfg now t0 < clockPeriod cfg :=
  Nat.mod_lt _ (clockPeriod_pos cfg)

/-- The elapsed time is the number of CLOCK_BITS bits that leads from `t0` to `now` (00_scope R13). -/
theorem add_elapsed (cfg : Config) (now t0 : Nat) :
    (t0 + elapsed cfg now t0) % clockPeriod cfg = now % clockPeriod cfg := by
  have h := Nat.mod_lt t0 (clockPeriod_pos cfg)
  unfold elapsed
  rw [Nat.add_mod_mod, ← Nat.mod_add_mod,
    show t0 % clockPeriod cfg + (now + (clockPeriod cfg - t0 % clockPeriod cfg)) = now + clockPeriod cfg by omega,
    Nat.add_mod_right]

/-- A tick adds one millisecond to the elapsed time, which comes round with the clock. -/
theorem elapsed_tick (cfg : Config) (now t0 : Nat) :
    elapsed cfg ((now + 1) % clockPeriod cfg) t0 = (elapsed cfg now t0 + 1) % clockPeriod cfg := by
  unfold elapsed
  rw [Nat.mod_add_mod, Nat.mod_add_mod, Nat.add_right_comm]

theorem ticks_self (us : Nat → Turn) (n : Nat) : ticks us n n = 0 := by simp [ticks]

theorem ticks_succ (us : Nat → Turn) {n m : Nat} (h : n ≤ m) :
    ticks us n (m + 1) = ticks us n m + if (us m).move = .tick then 1 else 0 := by
  unfold ticks
  rw [show m + 1 - n = (m - n) + 1 by omega, List.range_succ, List.countP_append]
  simp [show n + (m - n) = m by omega]

end Sys2Proof.Machine
end

