-- ==== Sys2Proof/Tests/Slice0.lean ====
section
/-! SUPPORT. Tests of the model, and the witnesses of the statements.

An expected value comes from a vector of 95_test_vectors, named in the docstring, or is worked out by hand from the rule
it names. A theorem `witness_<Name>…` shows a concrete state and operands that meet the hypotheses of the statement
`Obligations.<Name>` together, at the ends of their ranges. -/

open Sys2Proof Sys2Proof.Machine

namespace Sys2Proof.Tests

/-! ## WellFormed: one ill-formed term for each check -/

theorem test_wf_read_size : (Instr.readPacket 0 2048).wellFormed = false := by decide
theorem test_wf_read_range : (Instr.readPacket 0xFFFFFFFF 2).wellFormed = false := by decide
theorem test_wf_write_size : (Instr.writePacket 0 0 0x100000000).wellFormed = false := by decide
theorem test_wf_write_range : (Instr.writePacket 1 0xFFFFFFFE 3).wellFormed = false := by decide
theorem test_wf_dump_size : (Instr.dumpPacket 2048).wellFormed = false := by decide
theorem test_wf_global_out_nak : (Instr.rxGlobalOutNak 0 1 0 0).wellFormed = false := by decide
theorem test_wf_out_xfer_done : (Instr.rxOutXferDone 1 1 0 0).wellFormed = false := by decide
theorem test_wf_setup_done : (Instr.rxSetupDone 0 8 0 0).wellFormed = false := by decide
theorem test_wf_setup_data : (Instr.rxSetupData 0 7 0 0).wellFormed = false := by decide

/-! ## Decoding: a word from the spec's tables for every row -/

/-- ENC1. -/
theorem test_decode_init : decodeIn .port [0x08000000] = .ok .init := by decide
/-- Preamble 9. -/
theorem test_decode_connect : decodeIn .port [0x10000000] = .ok .connect := by decide
/-- R75. -/
theorem test_decode_disconnect : decodeIn .port [0x18000000] = .ok .disconnect := by decide
/-- CFG9. -/
theorem test_decode_set_rx : decodeIn .port [0x20000190] = .ok (.setRxFifoSize 400) := by decide
/-- ENC21. -/
theorem test_decode_set_tx : decodeIn .port [0x2F000010] = .ok (.setTxFifoSize 7 16) := by decide
/-- ENC8. -/
theorem test_decode_configure_in : decodeIn .port [0x31C00040] = .ok (.configureInEp 1 .interrupt 64) := by decide
/-- CFG3. -/
theorem test_decode_configure_out : decodeIn .port [0x38800040] = .ok (.configureOutEp 0 .bulk 64) := by decide
/-- ENC12. -/
theorem test_decode_in_transfer :
    decodeIn .port [0x41000005, 0x20000200, 0x00000064] = .ok (.inTransfer 1 5 0x20000200 100) := by decide
/-- ENC13. -/
theorem test_decode_out_transfer :
    decodeIn .port [0x49000080, 0x20000000, 0x000003E8] = .ok (.outTransfer 1 128 0x20000000 1000) := by decide
/-- ENC14. -/
theorem test_decode_setup_transfer :
    decodeIn .port [0x50000008, 0x20000200, 0x000001F4] = .ok (.setupTransfer 0 8 0x20000200 500) := by decide
/-- ENC15. -/
theorem test_decode_set_address : decodeIn .port [0x5800007F] = .ok (.setDeviceAddress 127) := by decide
/-- ENC17. -/
theorem test_decode_stall_in : decodeIn .port [0x61000000] = .ok (.stallInEp 1) := by decide
/-- ENC17. -/
theorem test_decode_stall_out : decodeIn .port [0x6A000000] = .ok (.stallOutEp 2) := by decide
/-- ENC17. -/
theorem test_decode_disable_in : decodeIn .port [0x71000000] = .ok (.disableInEp 1) := by decide
/-- ENC17. -/
theorem test_decode_disable_out : decodeIn .port [0x79000000] = .ok (.disableOutEp 1) := by decide
/-- OP 24; argument words of log 15. -/
theorem test_decode_read_packet :
    decodeIn .primitive [0xC0000000, 0x20000000, 5] = .ok (.readPacket 0x20000000 5) := by decide
/-- OP 25; argument words of log 15. -/
theorem test_decode_write_packet :
    decodeIn .primitive [0xCA000000, 0x20000100, 10] = .ok (.writePacket 2 0x20000100 10) := by decide
/-- OP 26; argument word of log 15. -/
theorem test_decode_dump_packet : decodeIn .primitive [0xD0000000, 13] = .ok (.dumpPacket 13) := by decide
/-- R83, bit 12. -/
theorem test_decode_usbrst : decodeIn .gintsts [0x00001000] = .ok .svcUsbrst := by decide
/-- R83, bit 13. -/
theorem test_decode_enumdne : decodeIn .gintsts [0x00002000] = .ok .svcEnumdne := by decide
/-- R83, bit 4. -/
theorem test_decode_rxflvl : decodeIn .gintsts [0x00000010] = .ok .svcRxflvl := by decide
/-- R83, bit 18. -/
theorem test_decode_iepint : decodeIn .gintsts [0x00040000] = .ok .svcIepint := by decide
/-- R83, bit 19. -/
theorem test_decode_oepint : decodeIn .gintsts [0x00080000] = .ok .svcOepint := by decide
/-- R83, bit 20. -/
theorem test_decode_iisoixfr : decodeIn .gintsts [0x00100000] = .ok .svcIisoixfr := by decide
/-- R83, bit 21. -/
theorem test_decode_ipxfr : decodeIn .gintsts [0x00200000] = .ok .svcIpxfr := by decide
/-- R83, bit 31. -/
theorem test_decode_wkupint : decodeIn .gintsts [0x80000000] = .ok .svcWkupint := by decide
/-- R85, PKTSTS 1, EPNUM 3. -/
theorem test_decode_global_out_nak : decodeIn .rxsts [0x00020003] = .ok (.rxGlobalOutNak 3 0 0 0) := by decide
/-- RXW6. -/
theorem test_decode_out_data : decodeIn .rxsts [0x00A50401] = .ok (.rxOutData 1 64 2 5) := by decide
/-- RXW2. -/
theorem test_decode_out_xfer_done : decodeIn .rxsts [0x00060001] = .ok (.rxOutXferDone 1 0 0 0) := by decide
/-- RXW4. -/
theorem test_decode_setup_done : decodeIn .rxsts [0x00080000] = .ok (.rxSetupDone 0 0 0 0) := by decide
/-- RXW3. -/
theorem test_decode_setup_data : decodeIn .rxsts [0x000C0080] = .ok (.rxSetupData 0 8 0 0) := by decide
/-- R84, XFRC bit 0. -/
theorem test_decode_iep_xfrc : decodeIn (.diepint 5) [0x00000001] = .ok (.iepXfrc 5) := by decide
/-- R84, TXFE bit 7. -/
theorem test_decode_iep_txfe : decodeIn (.diepint 3) [0x00000080] = .ok (.iepTxfe 3) := by decide
/-- R84, XFRC bit 0. -/
theorem test_decode_oep_xfrc : decodeIn (.doepint 0) [0x00000001] = .ok (.oepXfrc 0) := by decide
/-- R84, STUP bit 3. -/
theorem test_decode_oep_stup : decodeIn (.doepint 2) [0x00000008] = .ok (.oepStup 2) := by decide

/-- ENC2, ENC9, ENC10, ENC11, ENC16, ENC18, ENC20. -/
theorem test_decode_non_zero_field :
    (([0x08000001, 0x30000800, 0x40080000, 0x40400000, 0x58000080, 0x61000001, 0x2FFF0010] : List Word).map fun w => decodeIn .port [w, 0, 0]) =
      List.replicate 7 (.error .nonZeroField) := by decide
/-- ENC3, ENC4, ENC5. -/
theorem test_decode_reserved_op :
    (([0x00000000, 0x80000000, 0xF8000000] : List Word).map fun w => decodeIn .port [w, 0, 0]) =
      List.replicate 3 (.error .reservedOp) := by decide
/-- ENC6, ENC7. -/
theorem test_decode_internal_op :
    (([0xC0000000, 0xD0000000] : List Word).map fun w => decodeIn .port [w, 0, 0]) =
      List.replicate 2 (.error .internalOp) := by decide
/-- R85: PKTSTS 0, 5 and 7 to 15 are reserved. -/
theorem test_decode_reserved_kind :
    (([0x00000000, 0x000A0000, 0x000E0000, 0x001E0000] : List Word).map fun w => decodeIn .rxsts [w]) =
      List.replicate 4 (.error .reservedKind) := by decide
/-- RXW1, RXW3, RXW5, encoded. -/
theorem test_encode_rx : encode (.rxOutData 1 64 0 0) = [0x00040401] ∧ encode (.rxSetupData 0 8 0 0) = [0x000C0080] ∧
    encode (.rxOutData 2 8 0 0) = [0x00040082] := by decide
/-- ENC19 and its text (R90). -/
theorem test_send_zlp : (AsmLine.sendZlp 1 10).words = [0x41000000, 0x00000000, 0x0000000A] ∧
    (AsmLine.sendZlp 1 10).text = some "SEND_ZLP ep=1, timeout=10" := by decide
/-- R89: the text of a line. -/
theorem test_asm_text : (AsmLine.command (.inTransfer 1 5 0x20000200 100)).text =
      some "IN_TRANSFER ep=1, buf=536871424, size=5, timeout=100" ∧
    (AsmLine.command (.configureInEp 1 .interrupt 64)).text = some "CONFIGURE_IN_EP ep=1, type=interrupt, mps=64" := by
  decide
/-- R88: offsets, and the registers there. -/
theorem test_reg_offsets : regAt 0x014 = some .gintsts ∧ regAt 0x028 = some (.dieptxf 0) ∧
    regAt 0x104 = some (.dieptxf 1) ∧ regAt 0xB10 = some (.doeptsiz 0) ∧ regAt 0x8000 = some (.fifo 7) ∧
    regAt 0x000 = none := by decide

/-- The command bits at their places (R86, R87): CNAK 26, SNAK 27, EPDIS 30, SGINAK 7, CGINAK 8, CSRST 0, RXFFLSH 4,
TXFFLSH 5 beside TXFNUM 10:6, where 0x10 means all. -/
theorem test_command_bits : (CommandBit.cnak .inn 1).word = 0x04000000 ∧ (CommandBit.snak .out 1).word = 0x08000000 ∧
    (CommandBit.epdis .out 0).word = 0x40000000 ∧ CommandBit.sginak.word = 0x80 ∧ CommandBit.cginak.word = 0x100 ∧
    CommandBit.csrst.word = 1 ∧ CommandBit.rxfflsh.word = 0x10 ∧ (CommandBit.txfflsh 0x10).word = 0x420 := by decide

/-- The flush and NAK bits act, also on the highest endpoint. -/
theorem witness_RegisterWordsHoldTheirFields :
    let s := { State.reset with rxq := [1], txq := .all [2] }
    (∀ dir, ((CommandBit.cnak dir 7).act s).isSome = true ∧ ((CommandBit.snak dir 0).act s).isSome = true) ∧
    (CommandBit.sginak.act s).isSome = true ∧ (CommandBit.cginak.act s).isSome = true ∧
    (CommandBit.rxfflsh.act s).isSome = true ∧
    (CommandBit.txfflsh 0x10).act s = some { s with txq := .all [] } ∧
    (CommandBit.txfflsh 7).act s = some { s with txq := s.txq.set 7 [] } :=
  ⟨fun dir => by cases dir <;> exact ⟨rfl, rfl⟩, rfl, rfl, rfl, rfl, rfl⟩

/-! ## Small states

`std` is the standard configuration of 95_test_vectors, written out from what that file says it leaves. -/

/-- No draw of interest: spin loops end, TRDT 9, padding 0. -/
def draws0 : Draws := ⟨true, 9, .all 0⟩

/-- The standard configuration, with one task whose list is `prog` and whose command 0 comes next. -/
def std (prog : List Word) : State := { State.reset with
  inited := true
  core := { CoreRegs.zero with
    physel := true, fdmod := true, gint := true, gintmsk := 0x803C3010, rxfd := 64
    txsa := ⟨64, 80, 0, 0, 0, 0, 0, 0⟩, txfd := ⟨16, 16, 0, 0, 0, 0, 0, 0⟩
    dspd := 3, ginnak := true, diepmskXfrcm := true, doepmskXfrcm := true, doepmskStupm := true
    iepm := ⟨true, true, false, false, false, false, false, false⟩
    oepm := ⟨true, true, false, false, false, false, false, false⟩ }
  iep := ((PerEp.all InBank.zero).set 0 { InBank.zero with usbaep := true }).set 1 { InBank.zero with
    mpsiz := 64, usbaep := true, eptyp := .bulk, txfnum := 1 }
  oep := ((PerEp.all OutBank.zero).set 0 { OutBank.zero with usbaep := true }).set 1 { OutBank.zero with
    mpsiz := 64, usbaep := true, eptyp := .bulk }
  tasks := [Task.start prog] }

/-- A state whose next turn is the given move. -/
def due (m : Machine.Move) (s : State) : State := { s with sched := [⟨m, draws0⟩] }

/-- A state whose task 0 waits. -/
def waiting (dir : Dir) (e : Ep) (t0 : Nat) (tmo : Word) (now : Nat) (s : State) : State :=
  { s with tasks := [⟨[0x08000000], 0, .waiting dir e t0 tmo, none⟩], now := now }

/-- An Armed descriptor. -/
def armed (buf req off : Word) : Descriptor := ⟨.armed, buf, req, off⟩

/-- What a property of the state after an instruction is: false where it gives none. -/
def leaves (o : Host.Outcome State Fault Refusal) (p : State → Bool) : Bool :=
  match o with
  | .next t => p t
  | .fault _ => false
  | .refused _ => false

/-- The machine step of one move. -/
def after (m : Machine.Move) (s : State) (p : State → Bool) : Bool := leaves (step (due m s)) p

/-- The task's result register. -/
def resOf (t : State) : Option Word := (t.tasks[0]?).bind Machine.Task.res

/-- Whether task 0 is Done after its only command. -/
def doneOf (t : State) : Bool := (t.tasks[0]?).any fun k => decide (k.pc = 1) && decide (k.phase = .done)

/-! ## Bus control -/

/-- CTL2, through a step of the task. -/
theorem test_init : after (.task 0)
    { State.reset with tasks := [Task.start [0x08000000]], sched := [] }
    (fun t => decide (t.draws.initSpinOk = true) && t.inited && decide (t.core.gintmsk = 0x803C3010) && doneOf t) := by
  decide
/-- CTL1. -/
theorem test_init_spin : leaves (exec .init { State.reset with draws := ⟨false, 0, .all 0⟩, tasks := [Task.start []] })
    (fun t => decide (resOf t = some 0xFFFFFFFC) && !t.inited && !t.refused) := by decide
/-- CTL3. -/
theorem test_init_again : leaves (exec .init (std [])) (fun t => t.refused && decide (t.refusedBy = some .reInit)) := by
  decide
/-- CTL4. -/
theorem test_connect_early : leaves (exec .connect State.reset) (fun t => decide (t.refusedBy = some .notInited)) := by
  decide
/-- CTL5. -/
theorem test_disconnect : after (.task 0) { std [0x18000000] with busActive := true }
    (fun t => t.core.sdis && t.core.clkgate && !t.core.gint && !t.busActive && doneOf t) := by decide
/-- CTL6, CTL7. -/
theorem test_connect_gint :
    let off (b : Bool) : State := { std [] with
      cfg := { Config.default with connectRestoresGint := b }
      core := { (std []).core with sdis := true, clkgate := true, gint := false } }
    leaves (exec .connect (off true)) (fun t => !t.core.sdis && !t.core.clkgate && t.core.gint) ∧
    leaves (exec .connect (off false)) (fun t => !t.core.sdis && !t.core.clkgate && !t.core.gint) := by decide

/-! ## Endpoint configuration -/

/-- CFG5. -/
theorem test_configure_in : after (.task 0) (std [0x324003FF]) (fun t =>
    decide ((t.iep.get 2).mpsiz = 1023) && decide ((t.iep.get 2).eptyp = .isochronous) &&
    decide ((t.iep.get 2).txfnum = 2) && (t.iep.get 2).usbaep && t.core.iepm.get 2 && doneOf t) := by decide
/-- SRC4 (mps 16 has code 2), CFG2. -/
theorem test_configure_in_ep0 :
    after (.task 0) (std [0x30000010]) (fun t => decide ((t.iep.get 0).mpsiz = 2)) ∧
    after (.task 0) (std [0x3000000C]) (fun t => decide (t.refusedBy = some .badMps)) := by decide
/-- CFG7, CFG3. -/
theorem test_configure_out :
    after (.task 0) ((std [0x39800020]).setDout 1 (armed 0 64 0))
      (fun t => decide (t.refusedBy = some .reconfigureInFlight) && decide ((t.oep.get 1).mpsiz = 64)) ∧
    after (.task 0) (std [0x38800040]) (fun t => decide (t.refusedBy = some .ep0NotControl)) := by decide
/-- CFG8: only the OUT descriptor matters. -/
theorem test_configure_out_in_armed : after (.task 0) ((std [0x39800020]).setDin 1 (armed 0 64 0))
    (fun t => !t.refused && decide ((t.oep.get 1).mpsiz = 32) && t.core.oepm.get 1) := by decide
/-- SRC5 (the clamp), CFG13. -/
theorem test_set_rx :
    after (.task 0) { std [0x2000000A] with core := { (std []).core with txfd := .all 0 } }
      (fun t => decide (t.core.rxfd = 16)) ∧
    after (.task 0) (std [0x20000064]) (fun t => decide (t.refusedBy = some .fifoAlloc)) := by decide
/-- CFG11, CFG12. -/
theorem test_set_tx :
    let base (txfd : PerEp (BitVec 16)) (w : Word) : State := { std [w] with
      core := { (std []).core with txsa := ⟨0, 64, 0, 0, 0, 0, 0, 0⟩, txfd := txfd } }
    after (.task 0) (base (.all 0) 0x29000010)
      (fun t => decide (t.core.txsa.get 1 = 64) && decide (t.core.txfd.get 1 = 16)) ∧
    after (.task 0) (base ⟨0, 16, 0, 0, 0, 0, 0, 0⟩ 0x28000010)
      (fun t => decide (t.refusedBy = some .fifoAlloc)) := by decide

/-! ## Transfers -/

/-- P3: the arm of five bytes. -/
theorem test_in_transfer : after (.task 0) (std [0x41000005, 0x20000200, 0x00000064]) (fun t =>
    decide (t.din.get 1 = ⟨.armed, 0x20000200, 5, 0⟩) && decide ((t.iep.get 1).xfrsiz = 5) &&
    decide ((t.iep.get 1).pktcnt = 1) && (t.iep.get 1).epena && !(t.iep.get 1).nak && t.core.txfem.get 1 &&
    decide ((t.tasks[0]?).map Machine.Task.phase = some (.waiting .inn 1 0 100))) := by decide
/-- XFR8, XFR9 (a buffer that ends at 2^32), XFR10. -/
theorem test_in_transfer_checks :
    after (.task 0) (std [0x41000005, 0xFFFFFFFE, 0]) (fun t => decide (t.refusedBy = some .bufWrap)) ∧
    after (.task 0) (std [0x41000005, 0xFFFFFFFB, 0]) (fun t => !t.refused && (t.din.get 1).isArmed) ∧
    after (.task 0) ((std [0x41000004, 0x2000003F, 0]).setDout 1 (armed 0x20000000 64 0))
      (fun t => decide (t.fault = some (.bufferRace 0x2000003F)) && !(t.din.get 1).isArmed) := by decide
/-- P2: 128 bytes are two packets; XFR12: endpoint 0 clamps. -/
theorem test_out_transfer :
    after (.task 0) (std [0x49000080, 0x20000100, 0x000003E8]) (fun t =>
      decide ((t.oep.get 1).pktcnt = 2) && decide ((t.oep.get 1).xfrsiz = 128) && (t.oep.get 1).epena &&
      decide (t.dout.get 1 = ⟨.armed, 0x20000100, 128, 0⟩)) ∧
    after (.task 0) (std [0x480000C8, 0x20000100, 0]) (fun t =>
      decide ((t.oep.get 0).pktcnt = 1) && decide ((t.oep.get 0).xfrsiz = 64)) := by decide
/-- P1: STUPCNT 1 and XFRSIZ 64; XFR16: endpoint 1 is bulk. -/
theorem test_setup_transfer :
    after (.task 0) (std [0x50000008, 0x20000000, 0x000001F4]) (fun t =>
      decide ((t.oep.get 0).stupcnt = 1) && decide ((t.oep.get 0).xfrsiz = 64) && (t.oep.get 0).epena) ∧
    after (.task 0) (std [0x51000008, 0x20000000, 0]) (fun t => decide (t.refusedBy = some .notControl)) := by decide
/-- XFR17 (Busy), XFR2 (Fatal on an endpoint that is not configured). -/
theorem test_arm_errors :
    after (.task 0) ((std [0x50000008, 0x20000000, 0]).setDout 0 (armed 0 64 0))
      (fun t => decide (resOf t = some 0xFFFFFFFF) && doneOf t) ∧
    after (.task 0) (std [0x42000004, 0, 10]) (fun t => decide (resOf t = some 0xFFFFFFFC) && doneOf t) := by decide
/-- XFR18, XFR21: the elapsed time wraps. -/
theorem test_poll_timeout :
    let s (t0 now : Nat) : State := (waiting .out 1 t0 50 now (std [])).setDout 1 (armed 0 64 0)
    after (.task 0) (s 100 150) (fun t => decide (resOf t = none)) ∧
    after (.task 0) (s 100 151) (fun t => decide (resOf t = some 0xFFFFFFFE) && (t.oep.get 1).nak) ∧
    after (.task 0) (s 0xFFFFFFF0 0x22) (fun t => decide (resOf t = none)) ∧
    after (.task 0) (s 0xFFFFFFF0 0x23) (fun t => decide (resOf t = some 0xFFFFFFFE)) := by decide
/-- R147, D9: a wait on a descriptor that another task took to Idle ends with its budget. -/
theorem test_poll_idle :
    after (.task 0) (waiting .inn 1 100 50 150 (std [])) (fun t => decide (resOf t = none)) ∧
    after (.task 0) (waiting .inn 1 100 50 151 (std [])) (fun t => decide (resOf t = some 0xFFFFFFFE) && doneOf t &&
      decide ((t.din.get 1).status = .idle) && (t.iep.get 1).nak) := by decide
/-- XFR19: the status is checked first. -/
theorem test_poll_complete :
    after (.task 0) ((waiting .out 1 0 50 200 (std [])).setDout 1 ⟨.complete 64, 0, 64, 64⟩)
      (fun t => decide (resOf t = some 64) && decide ((t.dout.get 1).status = .idle) && doneOf t) := by decide
/-- XFR25. -/
theorem test_set_address : after (.task 0) (std [0x58000005])
    (fun t => decide (t.core.dad = 5) && decide (t.events = [.addressAssigned 5]) && doneOf t) := by decide
/-- XFR26, XFR30. -/
theorem test_stall :
    after (.task 0) (std [0x61000000]) (fun t => (t.iep.get 1).stall && doneOf t) ∧
    after (.task 0) (std [0x6D000000]) (fun t => (t.oep.get 5).stall && doneOf t) := by decide
/-- XFR29, and the OUT side (R132). -/
theorem test_disable :
    after (.task 0) ((std [0x71000000]).setDin 1 (armed 0 8 0))
      (fun t => !(t.iep.get 1).epena && (t.iep.get 1).nak && (t.din.get 1).isArmed) ∧
    after (.task 0) (std [0x79000000]) (fun t => !(t.oep.get 1).epena && (t.oep.get 1).nak) := by decide

/-! ## FIFO marshaling -/

/-- SRC3, FIF5. -/
theorem test_read_packet :
    leaves (exec (.readPacket 0x100 5) ((std []).setRxq [0x44332211, 0x00000055])) (fun t =>
      decide (t.mem.readBytes 0x100 6 = [0x11, 0x22, 0x33, 0x44, 0x55, 0]) && decide (t.rxq = [])) ∧
    leaves (exec (.readPacket 0x100 2) (std [])) (fun t => decide (t.fault = some .rxUnderflow)) := by decide
/-- FIF7, FIF8. -/
theorem test_write_packet :
    leaves (exec (.writePacket 1 0x100 3) ((std []).setMem [(0x100, 1), (0x101, 2), (0x102, 3)]))
      (fun t => decide (t.txq.get 1 = [0x00030201])) ∧
    leaves (exec (.writePacket 2 0x100 10) (std [])) (fun t => decide (t.txq.get 2 = [])) := by decide
/-- FIF12, FIF10. -/
theorem test_dump_packet :
    leaves (exec (.dumpPacket 5) ((std []).setRxq [1, 2, 3])) (fun t => decide (t.rxq = [3])) ∧
    leaves (exec (.dumpPacket 0) ((std []).setRxq [1])) (fun t => decide (t.rxq = [1])) := by decide

/-! ## The dispatcher -/

/-- DSP13. -/
theorem test_svc_usbrst : after .dispatch
    (((({ std [] with core := { (std []).core with usbrst := true, dad := 5 } } : State).setDin 1 (armed 0 8 0)).setDout 0
      ⟨.complete 8, 0, 8, 8⟩).setTxq 1 [7]) (fun t =>
    decide ((t.din.get 1).status = .failed .reset) && decide ((t.dout.get 0).status = .complete 8) &&
    decide ((t.dout.get 1).status = .idle) && decide (t.core.dad = 0) && decide (t.events = [.reset]) &&
    decide (t.txq.get 1 = []) && (t.iep.get 7).nak && !t.core.usbrst) := by decide
/-- DSP15. -/
theorem test_svc_enumdne : after .dispatch { std [] with core := { (std []).core with enumdne := true } }
    (fun t => decide (t.core.trdt = 6) && !t.core.ginnak && t.busActive && !t.core.enumdne &&
      decide (t.events = [])) := by decide
/-- DSP2. -/
theorem test_svc_rxflvl : after .dispatch
    (((std []).setRxq [0x00040082, 0x44332211, 0x88776655]).setDout 2 (armed 0x20000000 5 0)) (fun t =>
    decide (t.mem.readBytes 0x20000000 6 = [0x11, 0x22, 0x33, 0x44, 0x55, 0]) && decide ((t.dout.get 2).off = 5) &&
    decide (t.rxq = [])) := by decide
/-- DSP14: the flush comes first, and the receive service finds nothing. -/
theorem test_reset_before_receive : after .dispatch
    ({ std [] with core := { (std []).core with usbrst := true } }.setRxq [0x00040082])
    (fun t => decide (t.rxq = []) && decide (t.fault = none)) := by decide
/-- DSP16: exactly one notification. -/
theorem test_svc_iso : after .dispatch { std [] with core := { (std []).core with iisoixfr := true, ipxfr := true } }
    (fun t => !t.core.iisoixfr && !t.core.ipxfr && decide (t.events = [.isoIncomplete])) := by decide
/-- R112, one flag alone. -/
theorem test_svc_ipxfr : after .dispatch { std [] with core := { (std []).core with ipxfr := true } }
    (fun t => !t.core.ipxfr && decide (t.events = [.isoIncomplete])) := by decide
/-- DSP17, DSP18. -/
theorem test_svc_wkupint :
    after .dispatch { std [] with core := { (std []).core with wkupint := true } }
      (fun t => !t.core.wkupint && decide (t.events = [])) ∧
    after .dispatch { std [] with core := { (std []).core with usbrst := true, gint := false } }
      (fun t => t.core.usbrst && decide (t.events = [])) := by decide
/-- DSP3: one word read, one dumped. -/
theorem test_rx_out_data :
    leaves (exec (.rxOutData 2 8 0 0) (((std []).setRxq [0x44332211, 0x88776655]).setDout 2 (armed 0x100 3 0))) (fun t =>
      decide (t.mem.readBytes 0x100 4 = [0x11, 0x22, 0x33, 0]) && decide ((t.dout.get 2).off = 3) &&
      decide (t.rxq = [])) := by decide
/-- DSP6 (a full descriptor), for SETUP data. -/
theorem test_rx_setup_data :
    leaves (exec (.rxSetupData 0 8 0 0) (((std []).setRxq [1, 2]).setDout 0 (armed 0x100 8 8))) (fun t =>
      decide (t.rxq = []) && decide ((t.dout.get 0).off = 8) && decide (t.mem = [])) := by decide
/-- R109: no effect but the pop; 20_memory R60: the two flags. -/
theorem test_rx_kinds :
    leaves (exec (.rxGlobalOutNak 1 0 0 0) ((std []).setRxq [9])) (fun t => decide (t.rxq = [9]) && decide (t.oep = (std []).oep)) ∧
    leaves (exec (.rxOutXferDone 1 0 0 0) (std [])) (fun t => (t.oep.get 1).xfrc && !(t.oep.get 1).stup) ∧
    leaves (exec (.rxSetupDone 0 0 0 0) (std [])) (fun t => (t.oep.get 0).stup && !(t.oep.get 0).xfrc) := by decide
/-- R110: "transfer complete" of IN endpoint 1. -/
theorem test_iep_xfrc :
    leaves (exec (.iepXfrc 1) (((std []).setIep 1 { (std []).iep.get 1 with xfrc := true }).setDin 1 (armed 0 5 5)))
      (fun t => !(t.iep.get 1).xfrc && decide ((t.din.get 1).status = .complete 5)) := by decide
/-- DSP12, DSP10. -/
theorem test_iep_txfe :
    let on : State := { std [] with core := { (std []).core with txfem := (PerEp.all false).set 1 true } }
    leaves (exec (.iepTxfe 1) (on.setDin 1 (armed 0x100 100 0))) (fun t =>
      decide ((t.txq.get 1).length = 16) && decide ((t.din.get 1).off = 64) && t.core.txfem.get 1) ∧
    leaves (exec (.iepTxfe 1) on) (fun t => !t.core.txfem.get 1 && decide (t.txq.get 1 = [])) := by decide
/-- DSP8, DSP9. -/
theorem test_oep_xfrc :
    let on : State := (std []).setOep 1 { (std []).oep.get 1 with xfrc := true }
    leaves (exec (.oepXfrc 1) (on.setDout 1 (armed 0 8 3)))
      (fun t => !(t.oep.get 1).xfrc && decide ((t.dout.get 1).status = .complete 3)) ∧
    leaves (exec (.oepXfrc 1) on) (fun t => !(t.oep.get 1).xfrc && decide ((t.dout.get 1).status = .idle)) := by decide
/-- P1, step 9. -/
theorem test_oep_stup :
    leaves (exec (.oepStup 0) (((std []).setOep 0 { (std []).oep.get 0 with stup := true }).setDout 0 (armed 0 8 8)))
      (fun t => !(t.oep.get 0).stup && decide ((t.dout.get 0).status = .complete 8)) := by decide

/-! ## The bus agent, the clock and the observer -/

/-- An OUT endpoint armed for two packets. -/
def outArmed (pktcnt : BitVec 10) : State :=
  ((std []).setOep 1 { (std []).oep.get 1 with pktcnt := pktcnt, xfrsiz := 128, epena := true }).setDout 1
    (armed 0x100 128 0)

/-- BUS3, second packet: 36 bytes end the transfer. -/
theorem test_bus_out : after (.bus (.out 1 (List.replicate 36 0xAA) 0 0)) (outArmed 2) (fun t =>
    decide (t.rxq = 0x00040241 :: (List.replicate 9 0xAAAAAAAA ++ [0x00060001])) && !(t.oep.get 1).epena &&
    (t.oep.get 1).nak && decide ((t.oep.get 1).xfrsiz = 92)) := by decide
/-- BUS1, BUS2. -/
theorem test_bus_out_disabled :
    after (.bus (.out 1 (List.replicate 65 0) 0 0)) (outArmed 2) (fun t => decide (t.rxq = [])) ∧
    after (.bus (.out 1 (List.replicate 64 0) 0 0)) { outArmed 2 with core := { (std []).core with rxfd := 16 } }
      (fun t => decide (t.rxq = [])) := by decide
/-- P1, steps 5 and 6; XFR28. -/
theorem test_bus_setup :
    after (.bus (.setup 0 [0x80, 6, 0, 1, 0, 0, 0x40, 0] 0))
      ((std []).setOep 0 { (std []).oep.get 0 with stall := true, stupcnt := 1 }) (fun t =>
        decide (t.rxq = [0x000C0080, 0x01000680, 0x00400000]) && decide ((t.oep.get 0).stupcnt = 0) &&
        !(t.oep.get 0).stall && t.setupPending.get 0) ∧
    after (.bus (.setupdone 0)) { std [] with setupPending := (PerEp.all false).set 0 true } (fun t =>
        decide (t.rxq = [0x00080000]) && !t.setupPending.get 0 && (t.oep.get 0).nak) := by decide

/-- An IN endpoint whose packet of five bytes is in its FIFO. -/
def inReady : State :=
  { (std []).setTxq 1 [0x44332211, 0x00000055] with
    core := { (std []).core with ginnak := false }
    iep := (std []).iep.set 1 { (std []).iep.get 1 with xfrsiz := 5, pktcnt := 1, epena := true } }

/-- R145's example; BUS4. -/
theorem test_bus_in :
    after (.bus (.take 1)) inReady (fun t => decide (t.busTx = [(1, [0x11, 0x22, 0x33, 0x44, 0x55])]) &&
      decide (t.txq.get 1 = []) && decide ((t.iep.get 1).xfrsiz = 0) && (t.iep.get 1).xfrc && !(t.iep.get 1).epena) ∧
    after (.bus (.take 1)) { inReady with core := (std []).core } (fun t => decide (t.busTx = [])) := by decide
/-- BUS7, R146: the clock wraps, and it ticks before `init` too. -/
theorem test_tick :
    after .tick { State.reset with now := 0xFFFFFFFF } (fun t => decide (t.now = 0)) ∧
    after (.bus .reset) { std [] with core := { (std []).core with sdis := true } } (fun t => !t.core.usbrst) := by decide
/-- 10_state R47: a read of None is a fault. -/
theorem test_observe :
    after (.observe 0) (std []) (fun t => decide (t.fault = some (.unwrittenResult 0))) ∧
    after (.observe 0) { std [] with tasks := [⟨[], 0, .done, some 5⟩] } (fun t => decide (t.fault = none)) := by decide

/-! ## Derived values -/

/-- XFR1, SRC1. -/
theorem test_packet_count : [packetCount 1 64, packetCount 64 64, packetCount 65 64, packetCount 128 64,
    packetCount 129 64, packetCount 127 8, packetCount 0 64, packetCount 0 8] = [1, 1, 2, 2, 3, 16, 1, 1] := by decide
/-- SRC2. -/
theorem test_packing : packBytes 0 [0x11, 0x22, 0x33, 0x44, 0x55] = [0x44332211, 0x00000055] := by decide
/-- R87: DIEPCTL1 of the standard configuration, by hand: MPSIZ 64, USBAEP bit 15, EPTYP 2 at 18, TXFNUM 1 at 22. -/
theorem test_reg_words : regWord (std []) (.diepctl 1) = some 0x00488040 ∧ regWord (std []) (.dieptxf 1) = some 0x00100050 ∧
    regWord (std []) .grxfsiz = some 64 ∧ regWord (std []) .daintmsk = some 0x00030003 := by decide

/-- Where the host places a word: INIT brings the block up, and a service, an entry and an event run at once. -/
theorem test_with_fetch_word :
    leaves (step (State.reset.withFetchWord 32 0x08000000)) (fun t => t.inited) ∧
    leaves (step (State.reset.withFetchWord 32 0x00001000)) (fun t => decide (t.events = [.reset])) ∧
    leaves (step (State.reset.withFetchWord 32 0x00060001)) (fun t => (t.oep.get 1).xfrc) ∧
    leaves (step (State.reset.withFetchWord 32 0x80000000)) (fun t => !t.core.wkupint) := by decide
/-- A row of each space, as the host reads its words (log 14). -/
theorem test_table_words : [0x78000000, 0xD0000000, 0x00200000, 0x000C0000, 0x00000080, 0x00000008].map
    (decodeTableWord 32) = [some (.disableOutEp 0), some (.dumpPacket 0), some .svcIpxfr, some (.rxSetupData 0 0 0 0),
      some (.iepTxfe 0), some (.oepStup 0)] := by decide

/-! ## Witnesses: the step and the decoders -/

theorem witness_StepRunsDecodedCommand :
    let s := due (.task 0) (std [0x49000080, 0x20000000, 0x000003E8])
    (nextTurn s).move = .task 0 ∧ s.tasks[0]? = some (Task.start [0x49000080, 0x20000000, 0x000003E8]) ∧
    decodeCommand (dropCommands 0 [0x49000080, 0x20000000, 0x000003E8]) = .ok (.outTransfer 1 128 0x20000000 1000) := by
  decide

theorem witness_EncodeDecodeRoundTrip :
    (Instr.readPacket 0xFFFFF801 2047).wellFormed = true ∧ (Instr.writePacket 7 0 0xFFFFFFFF).wellFormed = true ∧
    (Instr.dumpPacket 2047).wellFormed = true ∧ (Instr.rxSetupData 15 8 3 15).wellFormed = true ∧
    (Instr.inTransfer 7 0x7FFFF 0xFFFFFFFF 0).wellFormed = true := by decide

theorem witness_DecodedCommandReencodes :
    decodeCommand [0x5707FFFF, 0xFFFFFFFF, 0, 5] = .ok (.setupTransfer 7 0x7FFFF 0xFFFFFFFF 0) ∧
    decodeCommand [0x08000000] = .ok .init := by decide

theorem witness_CommandsMatchTheMaskTable :
    (8, 0x40000000, 0xF8F80000) ∈ commandRows ∧ (0x4707FFFF : Word) &&& 0xF8F80000 = 0x40000000 ∧
    (1, 0x08000000, 0xFFFFFFFF) ∈ commandRows ∧ (0x08000000 : Word) &&& 0xFFFFFFFF = 0x08000000 := by decide

theorem witness_PortRefusesThreeKinds_words :
    (0x07FFFFFF : Word).toNat / 2 ^ 27 = 0 ∧ (0x80000000 : Word).toNat / 2 ^ 27 = 16 ∧
    (0xBFFFFFFF : Word).toNat / 2 ^ 27 = 23 ∧ (0xD8000000 : Word).toNat / 2 ^ 27 = 27 ∧
    (0xC0000000 : Word).toNat / 2 ^ 27 = 24 ∧ (0xD7FFFFFF : Word).toNat / 2 ^ 27 = 26 ∧
    ((0x08000001 : Word).toNat / 2 ^ 27 = 1 ∧ (0x08000001 : Word) &&& zeroBits 1 ≠ 0) ∧
    ((0x7F000000 : Word).toNat / 2 ^ 27 = 15 ∧ (0x7F000000 : Word) &&& zeroBits 15 = 0) := by decide

theorem witness_PortRefusesThreeKinds_step :
    ([(0x00000000, DecodeRefusal.reservedOp), (0x08000001, .nonZeroField), (0xC8000000, .internalOp)] :
      List (Word × DecodeRefusal)).all (fun c =>
        let s := due (.task 0) (std [c.1])
        decide ((nextTurn s).move = .task 0) && decide (s.tasks[0]? = some (Task.start [c.1])) &&
        decide (decodeCommand (dropCommands 0 [c.1]) = .error c.2)) = true := by decide

theorem witness_CommandLengthAndOperands :
    decodeCommand [0x37C007FF, 0, 0] = .ok (.configureInEp 7 .interrupt 2047) ∧
    decodeCommand [0x4F07FFFF, 1, 2] = .ok (.outTransfer 7 0x7FFFF 1 2) := by decide

/-! ## Witnesses: derived values -/

theorem witness_PacketCountLaw : 1 ≤ 1 ∧ packetCount 524287 1 = 524287 := by decide

theorem witness_MaxPacketSizeCodes : mpsCode 8 = some 3 ∧ mpsCode 64 = some 0 ∧ (1 : Ep) ≠ 0 := by decide

theorem witness_PackingIsLittleEndian : ([0x11, 0x22, 0x33, 0x44, 0x55] : List Byte)[4]? = some 0x55 := by decide

/-! ## Witnesses: bus control -/

theorem witness_InitOutcomes :
    (std []).inited = true ∧
    (State.reset.inited = false ∧ ({ State.reset with draws := ⟨false, 0, .all 0⟩ } : State).draws.initSpinOk = false) ∧
    ({ State.reset with draws := draws0 } : State).draws.initSpinOk = true := by decide

theorem witness_ConnectAndDisconnect : (std []).inited = true := by decide

theorem witness_CommandsRefusedBeforeInit :
    (Instr.inTransfer 1 5 0 0).space = .port ∧ Instr.inTransfer 1 5 0 0 ≠ .init ∧ State.reset.inited = false := by decide

/-! ## Witnesses: endpoint configuration -/

theorem witness_ConfigureInEpMapsTheBank :
    let s := (std []).setDin 2 (armed 0 1 0)
    let ok := fun (e : Ep) (mps : BitVec 11) =>
      (e = 0 ∧ mps ∈ s.cfg.mpsEp0Set ∧ mps ∈ [8, 16, 32, 64]) ∨ (e ≠ 0 ∧ 1 ≤ mps.toNat ∧ mps.toNat ≤ s.cfg.mpsMax.toNat)
    s.inited = true ∧ (s.din.get 2).status = .armed ∧
    ((s.din.get 0).status ≠ .armed ∧ EpType.bulk ≠ .control) ∧ ((s.din.get 0).status ≠ .armed ∧ ¬ ok 0 12) ∧
    ((s.din.get 7).status ≠ .armed ∧ ¬ ok 7 0) ∧ ok 0 8 ∧ ok 0 64 ∧ ok 7 1 ∧ ok 7 2047 :=
  ⟨by decide, by decide, by decide, by decide, by decide, by decide, by decide, by decide, by decide⟩

theorem witness_ConfigureOutEpMapsTheBank :
    let s := (std []).setDout 2 (armed 0 1 0)
    let ok := fun (e : Ep) (mps : BitVec 11) =>
      (e = 0 ∧ mps ∈ s.cfg.mpsEp0Set ∧ mps ∈ [8, 16, 32, 64]) ∨ (e ≠ 0 ∧ 1 ≤ mps.toNat ∧ mps.toNat ≤ s.cfg.mpsMax.toNat)
    s.inited = true ∧ (s.dout.get 2).status = .armed ∧
    ((s.dout.get 0).status ≠ .armed ∧ EpType.bulk ≠ .control) ∧ ((s.dout.get 0).status ≠ .armed ∧ ¬ ok 0 63) ∧
    ((s.dout.get 7).status ≠ .armed ∧ ¬ ok 7 0) ∧ ok 0 8 ∧ ok 0 64 ∧ ok 7 1 ∧ ok 7 2047 :=
  ⟨by decide, by decide, by decide, by decide, by decide, by decide, by decide, by decide, by decide⟩

/-- The receive FIFO of the standard configuration may have 64 words, its own start, and not 65. -/
theorem witness_SetRxFifoSizeEffect :
    let s := std []
    let fits := fun w => AllocMeets s.cfg.fifoRamWords.toNat w (fun e => (s.core.txsa.get e).toNat)
      (fun e => (s.core.txfd.get e).toNat)
    s.inited = true ∧ s.rxq = [] ∧ (¬ ∃ k, (s.dout.get k).status = .armed) ∧ fits (max 64 16) ∧ ¬ fits (max 65 16) ∧
    (s.setRxq [0]).rxq ≠ [] ∧ ∃ k, ((s.setDout 7 (armed 0 0 0)).dout.get k).status = .armed := by
  unfold AllocMeets; decide

/-- Endpoint 2's FIFO starts at 96, so 224 words fit in 320, and not 225. -/
theorem witness_SetTxFifoSizeEffect :
    let s := std []
    let sa := s.core.rxfd.toNat + (Finset.univ.filter fun k : Ep => k < 2).sum fun k => (s.core.txfd.get k).toNat
    let fits := fun w => AllocMeets s.cfg.fifoRamWords.toNat s.core.rxfd.toNat
      (fun k => if k = 2 then sa else (s.core.txsa.get k).toNat) (fun k => if k = 2 then w else (s.core.txfd.get k).toNat)
    s.inited = true ∧ s.txq.get 2 = [] ∧ (s.din.get 2).status ≠ .armed ∧ fits (max 224 16) ∧ ¬ fits (max 225 16) ∧
    0 < max 224 16 ∧ (s.setTxq 2 [0]).txq.get 2 ≠ [] ∧ ((s.setDin 2 (armed 0 0 0)).din.get 2).status = .armed := by
  unfold AllocMeets; decide

/-! ## Witnesses: transfers -/

/-- No check of an IN arm applies to endpoint 1 of the standard configuration, up to a buffer that ends at 2^32. -/
theorem witness_InTransferArms_bulk :
    let s := std []
    ArmPasses s .inn ((s.iep.get 1).usbaep = true) True ((s.din.get 1).status = .armed) (InLimit s 1 5) 0xFFFFFFFB 5 ∧
    (s.iep.get 1).eptyp ≠ .isochronous :=
  ⟨⟨by decide, by decide, trivial, by decide, (inLimit_eq_none _ _ _).1 (by decide), by decide,
    (raceAddr_eq_none _ _ _ _).1 (by decide)⟩, by decide⟩

/-- An isochronous IN endpoint 2 with a FIFO of 16 words. -/
def isoState : State :=
  { (std []).setIep 2 { InBank.zero with mpsiz := 64, usbaep := true, eptyp := .isochronous, txfnum := 2 } with
    core := { (std []).core with txsa := ⟨64, 80, 96, 0, 0, 0, 0, 0⟩, txfd := ⟨16, 16, 16, 0, 0, 0, 0, 0⟩ } }

/-- XFR7. -/
theorem witness_InTransferArms_iso :
    ArmPasses isoState .inn ((isoState.iep.get 2).usbaep = true) True ((isoState.din.get 2).status = .armed)
      (InLimit isoState 2 64) 0x100 64 ∧ (isoState.iep.get 2).eptyp = .isochronous :=
  ⟨⟨by decide, by decide, trivial, by decide, (inLimit_eq_none _ _ _).1 (by decide), by decide,
    (raceAddr_eq_none _ _ _ _).1 (by decide)⟩, by decide⟩

/-- XFR7. -/
theorem test_in_transfer_iso :
    leaves (exec (.inTransfer 2 10 0x100 5) { isoState with tasks := [Task.start []] }) (fun t =>
      decide ((t.iep.get 2).pktcnt = 1) && decide ((t.iep.get 2).mcnt = 1) && decide ((t.txq.get 2).length = 3) &&
      decide ((t.din.get 2).off = 10) && !t.core.txfem.get 2) := by decide

theorem witness_OutAndSetupTransferArms_out :
    let s := std []
    ArmPasses s .out ((s.oep.get 1).usbaep = true) True ((s.dout.get 1).status = .armed) (fun _ => False)
      0xFFFFFF80 128 :=
  ⟨by decide, by decide, trivial, by decide, fun _ h => h, by decide, (raceAddr_eq_none _ _ _ _).1 (by decide)⟩

theorem witness_OutAndSetupTransferArms_setup :
    let s := std []
    ArmPasses s .out ((s.oep.get 0).usbaep = true) ((s.oep.get 0).eptyp = .control) ((s.dout.get 0).status = .armed)
      (fun _ => False) 0xFFFFFFF8 8 :=
  ⟨by decide, by decide, by decide, by decide, fun _ h => h, by decide, (raceAddr_eq_none _ _ _ _).1 (by decide)⟩

/-- Byte 0x2000003F is the last of an Armed OUT buffer, and the lowest that an arm from there on would share. -/
theorem lowest_owned :
    ∀ dir, LowestOwned ((std []).setDout 3 (armed 0x20000000 64 0)) dir 0x2000003F 4 0x2000003F := fun _ =>
  ⟨⟨by decide, by decide, .inl ⟨3, by decide, by decide, by decide⟩⟩, fun _ hb h => absurd h.1 (Nat.not_le.2 hb)⟩

/-- Checks (1) to (7) of the three arms, each reached (R117). -/
theorem witness_ArmChecksInOrder_in :
    let s := std []
    State.reset.inited = false ∧ s.inited = true ∧ ¬ (s.iep.get 2).usbaep = true ∧ (s.iep.get 0).usbaep = true ∧
    ((s.setDin 0 (armed 0 0 0)).din.get 0).status = .armed ∧ (s.din.get 0).status ≠ .armed ∧
    InLimit s 0 128 .tooLarge ∧ InLimit isoState 2 65 .isoMultiPacket ∧
    ((∀ r, ¬ InLimit s 0 127 r) ∧ memBytes Config.default < 0xFFFFFF82 + 127) ∧
    ((∀ r, ¬ InLimit ((std []).setDout 3 (armed 0x20000000 64 0)) 1 4 r) ∧ 0x2000003F + 4 ≤ memBytes Config.default ∧
      LowestOwned ((std []).setDout 3 (armed 0x20000000 64 0)) .inn 0x2000003F 4 0x2000003F) :=
  ⟨by decide, by decide, by decide, by decide, by decide, by decide, (inLimit_eq_some _ _ _ _).1 (by decide),
    (inLimit_eq_some _ _ _ _).1 (by decide), ⟨(inLimit_eq_none _ _ _).1 (by decide), by decide⟩,
    (inLimit_eq_none _ _ _).1 (by decide), by decide, lowest_owned _⟩

theorem witness_ArmChecksInOrder_out :
    let s := std []
    State.reset.inited = false ∧ s.inited = true ∧ ¬ (s.oep.get 2).usbaep = true ∧ (s.oep.get 1).usbaep = true ∧
    (s.oep.get 0).eptyp = .control ∧ ¬ (s.oep.get 1).eptyp = .control ∧
    ((s.setDout 1 (armed 0 0 0)).dout.get 1).status = .armed ∧ (s.dout.get 1).status ≠ .armed ∧
    memBytes Config.default < 0xFFFFFFFF + 2 ∧ 0x2000003F + 4 ≤ memBytes Config.default ∧
    LowestOwned ((std []).setDout 3 (armed 0x20000000 64 0)) .out 0x2000003F 4 0x2000003F :=
  ⟨by decide, by decide, by decide, by decide, by decide, by decide, by decide, by decide, by decide, by decide,
    lowest_owned _⟩

/-- The five outcomes of a poll; the budget at its end and one past it, on Armed and on Idle. -/
theorem witness_PollOutcomes :
    let s := fun (dir : Dir) (now : Nat) (d : Descriptor) =>
      due (.task 0) (setDescriptor (waiting dir 1 0xFFFFFFF0 50 now (std [])) dir 1 d)
    let waits := fun (dir : Dir) (u : State) =>
      (nextTurn u).move = .task 0 ∧ (u.tasks[0]?).map Machine.Task.phase = some (.waiting dir 1 0xFFFFFFF0 50)
    (waits .out (s .out 0 ⟨.complete 64, 0, 64, 64⟩) ∧
      (descriptor (s .out 0 ⟨.complete 64, 0, 64, 64⟩) .out 1).status = .complete 64) ∧
    (waits .inn (s .inn 0 ⟨.failed .reset, 0, 64, 0⟩) ∧
      (descriptor (s .inn 0 ⟨.failed .reset, 0, 64, 0⟩) .inn 1).status = .failed .reset) ∧
    (waits .out (s .out 0x22 (armed 0 64 0)) ∧ (descriptor (s .out 0x22 (armed 0 64 0)) .out 1).status = .armed ∧
      elapsed Config.default (s .out 0x22 (armed 0 64 0)).now 0xFFFFFFF0 = (50 : Word).toNat) ∧
    (waits .inn (s .inn 0x23 (armed 0 64 0)) ∧ (descriptor (s .inn 0x23 (armed 0 64 0)) .inn 1).status = .armed ∧
      (50 : Word).toNat < elapsed Config.default (s .inn 0x23 (armed 0 64 0)).now 0xFFFFFFF0) ∧
    (waits .out (s .out 0x23 (armed 0 64 0)) ∧ (descriptor (s .out 0x23 (armed 0 64 0)) .out 1).status = .armed ∧
      (50 : Word).toNat < elapsed Config.default (s .out 0x23 (armed 0 64 0)).now 0xFFFFFFF0) ∧
    (waits .inn (s .inn 0x22 ⟨.idle, 0, 64, 0⟩) ∧ (descriptor (s .inn 0x22 ⟨.idle, 0, 64, 0⟩) .inn 1).status = .idle ∧
      elapsed Config.default (s .inn 0x22 ⟨.idle, 0, 64, 0⟩).now 0xFFFFFFF0 = (50 : Word).toNat) ∧
    (waits .out (s .out 0x23 ⟨.idle, 0, 64, 0⟩) ∧ (descriptor (s .out 0x23 ⟨.idle, 0, 64, 0⟩) .out 1).status = .idle ∧
      (50 : Word).toNat < elapsed Config.default (s .out 0x23 ⟨.idle, 0, 64, 0⟩).now 0xFFFFFFF0) := by decide

theorem witness_WaitEndsOnlyByPoll :
    (let s := due (.task 0) ((waiting .out 1 0 50 0 (std [])).setDout 1 ⟨.complete 64, 0, 64, 64⟩);
      (s.tasks[0]?).map Machine.Task.phase = some (.waiting .out 1 0 50) ∧ ∃ t, step s = .next t) ∧
    (let s := due .tick (waiting .out 1 0 50 0 (std []));
      s.tasks[0]?.isSome = true ∧ (nextTurn s).move ≠ .task 0 ∧ ∃ t, step s = .next t) :=
  ⟨⟨by decide, _, rfl⟩, by decide, by decide, _, rfl⟩

/-! A fair run, for FairRunsEndEveryWait: a task that waits, and turns of the clock, the task and the dispatcher in rotation. -/

/-- The turns of the run. -/
def fairTurns (n : Nat) : Turn :=
  ⟨if n % 3 = 0 then .tick else if n % 3 = 1 then .task 0 else .dispatch, draws0⟩

/-- The first state of the run: after `init` and with the interrupt gated, a wait of 50 milliseconds that nothing
completes. -/
def fairStart : State :=
  (waiting .out 1 0 50 0 { std [] with core := { (std []).core with gint := false } }).setDout 1 (armed 0 64 0)

/-- The states of the run, as long as the steps answer one. -/
def fairRun : Nat → State
  | 0 => fairStart
  | n + 1 =>
    match step { fairRun n with sched := [fairTurns n] } with
    | .next t => t
    | .fault _ => fairRun n
    | .refused _ => fairRun n

/-- What holds along the run: the block is brought up and its interrupt gated, and its one task waits or is Done, with its
last command the one at `pc`. -/
def FairInv (s : State) : Prop :=
  s.inited = true ∧ s.core.gint = false ∧ ∃ k, s.tasks = [k] ∧ k.phase ≠ .ready ∧ (k.phase = .done ∨ dropCommands (k.pc + 1) k.prog = [])

/-- A poll of the one task, which is at its last command, keeps it. -/
theorem fairInv_poll {s : State} {k : Machine.Task} (h : FairInv s) (hc : s.cur = 0) (hk : s.tasks = [k])
    (hd : dropCommands (k.pc + 1) k.prog = []) (dir : Dir) (e : Ep) (t0 : Nat) (tmo : Word) :
    FairInv (poll dir e t0 tmo s) := by
  have hend : ∀ v u, u.inited = s.inited → u.core = s.core → u.cur = s.cur → u.tasks = s.tasks →
      FairInv (endWait dir e v u) := by
    intro v u h1 h4 h2 h3
    have htask : (setDescriptor u dir e { descriptor u dir e with status := .idle }).tasks = [k] := by
      cases dir <;> simp [setDescriptor, h3, hk]
    have hcur : (setDescriptor u dir e { descriptor u dir e with status := .idle }).cur = 0 := by
      cases dir <;> simp [setDescriptor, h2, hc]
    refine ⟨by cases dir <;> simp [endWait, setDescriptor, h1, h.1],
      by cases dir <;> simp [endWait, setDescriptor, h4, h.2.1], Machine.Task.advance { k with res := some v }, ?_, ?_⟩
    · rw [endWait, returnRes, onCur_tasks _ _ k (by simp [htask, hcur]), htask, hcur]; rfl
    · simp [Machine.Task.advance, hd]
  rcases poll_cases dir e t0 tmo s with ⟨n, -, hp⟩ | ⟨-, hp⟩ | ⟨-, -, hp⟩ | ⟨-, -, hp⟩ <;> rw [hp]
  · exact hend _ _ rfl rfl rfl rfl
  · exact hend _ _ rfl rfl rfl rfl
  · exact hend _ _ (by cases dir <;> rfl) (by cases dir <;> rfl) (by cases dir <;> rfl) (by cases dir <;> rfl)
  · exact h

/-- Each turn of the run is a step that keeps it. -/
theorem fairInv_step {s : State} (h : FairInv s) (n : Nat) :
    ∃ t, step { s with sched := [fairTurns n] } = .next t ∧ FairInv t := by
  let u : State := afterTurn { s with sched := [fairTurns n] }
  have hu : FairInv u := h
  have hu0 : FairInv { u with cur := 0 } := h
  have hturn : (fairTurns n).move = .tick ∨ (fairTurns n).move = .task 0 ∨ (fairTurns n).move = .dispatch := by
    unfold fairTurns; dsimp only; split_ifs <;> simp
  have hstep : step { s with sched := [fairTurns n] } = runMove (fairTurns n).move u := rfl
  rw [hstep]
  rcases hturn with hm | hm | hm <;> rw [hm]
  · exact ⟨tick u, rfl, h⟩
  · obtain ⟨-, -, k, hk, hr, hd⟩ := hu
    have ht : runMove (.task 0) u = taskTurn k { u with cur := 0 } := by simp [runMove, hk]
    rw [ht]
    cases hp : k.phase with
    | ready => exact absurd hp hr
    | done => exact ⟨_, by simp only [taskTurn, hp], hu0⟩
    | waiting dir e t0 tmo => exact ⟨_, by simp only [taskTurn, hp], fairInv_poll hu0 rfl hk (hd.resolve_left (by simp [hp])) dir e t0 tmo⟩
  · exact ⟨u, by simp [runMove, dispatchTurn, dispatch, masked, hu.1, hu.2.1], hu⟩

theorem fairInv_start : FairInv fairStart := ⟨rfl, rfl, _, rfl, by decide, .inr (by decide)⟩

theorem fairInv_run (n : Nat) : FairInv (fairRun n) := by
  induction n with
  | zero => exact fairInv_start
  | succ n ih =>
    obtain ⟨t, ht, hi⟩ := fairInv_step ih n
    rw [fairRun, ht]; exact hi

/-- Each of the three moves comes again after any point, before three turns have passed. -/
theorem fairTurns_again (n c : Nat) (hc : c < 3) : ∃ m, n ≤ m ∧ m < n + 3 ∧ m % 3 = c :=
  ⟨n + (c + 3 - n % 3) % 3, by omega, by omega, by omega⟩

/-- The run is fair, its block is brought up and its task waits at the start, and the task has its turn before five milliseconds have passed. -/
theorem witness_FairRunsEndEveryWait :
    IsRun fairRun fairTurns ∧ Fair fairRun fairTurns ∧ (fairRun 0).inited = true ∧
    ((fairRun 0).tasks[0]?).map Machine.Task.phase = some (.waiting .out 1 0 50) ∧
    TurnsWithin fairTurns 0 (clockPeriod (fairRun 0).cfg - ((50 : Word).toNat + 1)) := by
  refine ⟨fun n => ?_, ⟨fun n _ => ?_, fun n _ => ?_, fun j n h => ?_⟩, rfl, by decide, fun n => ?_⟩
  · obtain ⟨t, ht, -⟩ := fairInv_step (fairInv_run n) n
    rw [fairRun, ht]
  · obtain ⟨m, hm, -, h⟩ := fairTurns_again n 2 (by decide)
    exact ⟨m, hm, by simp [fairTurns, h, Move.agent]⟩
  · obtain ⟨m, hm, -, h⟩ := fairTurns_again n 0 (by decide)
    exact ⟨m, hm, by simp [fairTurns, h, Move.agent]⟩
  · obtain ⟨k, hk, -⟩ := h n (Nat.le_refl n)
    obtain ⟨-, -, k', hk', -⟩ := fairInv_run n
    obtain rfl : j = 0 := by
      rw [hk'] at hk
      have := (List.getElem?_eq_some_iff.1 hk).1
      simpa using this
    obtain ⟨m, hm, -, h⟩ := fairTurns_again n 1 (by decide)
    exact ⟨m, hm, by simp [fairTurns, h, Move.agent]⟩
  · obtain ⟨m, hm, hlt, h⟩ := fairTurns_again n 1 (by decide)
    refine ⟨m, hm, by simp [fairTurns, h], Nat.lt_of_le_of_lt (List.countP_le_length) ?_⟩
    have : clockPeriod (fairRun 0).cfg - ((50 : Word).toNat + 1) = 4294967245 := by decide
    rw [List.length_range, this]; omega

theorem witness_DirectOperations : (std []).inited = true := by decide

/-! ## Witnesses: FIFO marshaling -/

theorem witness_ReadAndDumpPacketEffect_read :
    let s := (std []).setRxq [0x44332211, 0x00000055]
    MemOk s ∧ (0xFFFFFFFB : Word).toNat + 5 ≤ memBytes Config.default ∧ wordsFor 5 ≤ s.rxq.length ∧ s.rxq.length < wordsFor 9 ∧
    (0 : Word).toNat + 9 ≤ memBytes Config.default ∧ memBytes Config.default < (0xFFFFFFFC : Word).toNat + 5 := by unfold MemOk; decide

theorem witness_WritePacketEffect :
    let s := std []
    let n := fun size => min size (4 * ((s.core.txfd.get 1).toNat - (s.txq.get 1).length))
    (0xFFFFFFC0 : Word).toNat + n 64 ≤ memBytes Config.default ∧ memBytes Config.default < (0xFFFFFFC1 : Word).toNat + n 65 := by decide

theorem witness_ReadAndDumpPacketEffect_dump :
    let s := (std []).setRxq [1, 2]
    wordsFor 8 ≤ s.rxq.length ∧ s.rxq.length < wordsFor 9 := by decide

/-! ## Witnesses: the dispatcher -/

/-- Idle, Armed and Complete descriptors that are sound. -/
theorem ok_of {space : Nat} (d : Descriptor) (h : match d.status with
    | .armed => d.off.toNat ≤ d.req.toNat ∧ d.req.toNat < 2 ^ 19 ∧ d.buf.toNat + d.req.toNat ≤ space
    | .complete n => n = d.off ∧ d.off.toNat ≤ d.req.toNat ∧ d.req.toNat < 2 ^ 19
    | .idle => True
    | .failed _ => True) : d.Ok space := by
  refine ⟨fun hs => ?_, fun n hs => ?_⟩ <;> rw [hs] at h <;> exact h

/-- The standard configuration with a data entry of five bytes for endpoint 1, whose descriptor is Armed. -/
def rxState : State := ((std []).setRxq [0x00040051, 0x44332211, 0x00000055]).setDout 1 (armed 0x100 5 0)

theorem rxState_framed : Framed rxState.rxq := Framed.one _ (by decide)

theorem descsOk_set {s : State} {e : Ep} {d : Descriptor} (hi : ∀ k, (s.din.get k).Ok (memBytes s.cfg))
    (ho : s.dout = .all .empty) (hd : d.Ok (memBytes s.cfg)) : DescsOk (s.setDout e d) := by
  refine fun k => ⟨hi k, ?_⟩
  simp only [State.setDout_dout, PerEp.get_set, ho, PerEp.get_all]
  split
  · exact hd
  · exact ok_of _ trivial

theorem rxState_descs : DescsOk rxState :=
  descsOk_set (fun k => by rw [State.setRxq_din]; exact (PerEp.get_all _ k ▸ ok_of _ trivial)) rfl
    (ok_of _ ⟨by decide, by decide, by decide⟩)

theorem witness_IsoIncompleteOnce :
    let s := due .dispatch ({ std [] with
      core := { (std []).core with usbrst := true, iisoixfr := true, ipxfr := true } }.setRxq rxState.rxq)
    (nextTurn s).move = .dispatch ∧ s.inited = true ∧ Framed s.rxq ∧ ∃ t, step s = .next t :=
  ⟨by decide, by decide, rxState_framed, _, rfl⟩

theorem witness_ReceiveServiceRunsHeadEntry :
    (std []).rxq = [] ∧ rxState.rxq = 0x00040051 :: [0x44332211, 0x00000055] ∧
    decodeRx 0x00040051 = .ok (.rxOutData 1 5 0 0) ∧ decodeRx 0x000A0051 = .error .reservedKind ∧
    Framed rxState.rxq ∧ DescsOk rxState :=
  ⟨by decide, by decide, by decide, by decide, rxState_framed, rxState_descs⟩

/-- Room for one byte, none left, and an endpoint that does not exist. -/
theorem witness_DataEntryKeptOrDumped :
    let s := ((std []).setRxq [1, 2]).setDout 7 (armed 0xFFFFFFF8 8 7)
    let full := ((std []).setRxq [1, 2]).setDout 7 (armed 0 8 8)
    MemOk s ∧ wordsFor (8 : BitVec 11).toNat ≤ s.rxq.length ∧
    ((7 : BitVec 4).toNat = (7 : Ep).val ∧ (s.dout.get 7).status = .armed ∧
      (s.dout.get 7).off.toNat < (s.dout.get 7).req.toNat ∧
      (s.dout.get 7).buf.toNat + (s.dout.get 7).req.toNat ≤ memBytes Config.default) ∧
    (MemOk full ∧ (full.dout.get 7).req.toNat ≤ (full.dout.get 7).off.toNat) ∧
    (s.dout.get 0).status ≠ .armed ∧ (∀ e : Ep, (8 : BitVec 4).toNat ≠ e.val) := by unfold MemOk; decide

theorem witness_OtherEntriesRaiseTheirFlag :
    wordsFor (0 : BitVec 11).toNat ≤ (std []).rxq.length ∧ wordsFor (8 : BitVec 11).toNat ≤ ((std []).setRxq [1, 2]).rxq.length := by
  decide

/-- Both events of endpoint 1 are flagged, and none of endpoint 0. -/
def flagged : State :=
  let b := { std [] with core := { (std []).core with txfem := (PerEp.all false).set 1 true } }
  (b.setIep 1 { b.iep.get 1 with xfrc := true }).setOep 1 { b.oep.get 1 with xfrc := true, stup := true }

theorem witness_CompletionEvents :
    (flagged.core.iepm.get 1 = true ∧ (flagged.iep.get 1).xfrc = true ∧ flagged.core.diepmskXfrcm = true) ∧
    (flagged.core.oepm.get 1 = true ∧ (flagged.oep.get 1).xfrc = true ∧ flagged.core.doepmskXfrcm = true) ∧
    ((flagged.oep.get 1).stup = true ∧ flagged.core.doepmskStupm = true) ∧
    (flagged.iep.get 0).xfrc = false ∧ (flagged.oep.get 0).xfrc = false ∧ (flagged.oep.get 0).stup = false ∧
    ((flagged.setDin 1 (armed 0 1 1)).din.get 1).status = .armed ∧ (flagged.din.get 1).status ≠ .armed ∧
    ((flagged.setDout 1 (armed 0 1 1)).dout.get 1).status = .armed ∧ (flagged.dout.get 1).status ≠ .armed := by decide

/-- A chunk that ends the buffer at 2^32, none Armed, and an endpoint that is not flagged. -/
theorem witness_FifoEmptyEvent :
    let s := flagged.setDin 1 (armed 0xFFFFFF9C 100 64)
    let flag := fun (u : State) (e : Ep) => u.core.iepm.get e = true ∧ u.txq.get e = [] ∧ u.core.txfem.get e = true
    (flag s 1 ∧ (s.din.get 1).status = .armed ∧ (s.din.get 1).off.toNat ≤ (s.din.get 1).req.toNat ∧
      (s.din.get 1).buf.toNat + (s.din.get 1).req.toNat ≤ memBytes Config.default) ∧
    (flag flagged 1 ∧ (flagged.din.get 1).status ≠ .armed) ∧ ¬ flag flagged 0 := by decide

theorem descsOk_setDin {s : State} {e : Ep} {d : Descriptor} (hi : s.din = .all .empty) (ho : s.dout = .all .empty)
    (hd : d.Ok (memBytes s.cfg)) : DescsOk (s.setDin e d) := by
  intro k
  simp only [State.setDin_din, State.setDin_dout, PerEp.get_set, hi, ho, PerEp.get_all]
  refine ⟨?_, ok_of _ trivial⟩
  split
  · exact hd
  · exact ok_of _ trivial

/-- Each way an endpoint can stand: both events, FIFO empty alone, neither; Armed and not. -/
theorem witness_EndpointServicesPerEndpoint :
    let s := flagged.setDin 1 (armed 0x100 100 64)
    let u := (flagged.setIep 1 { flagged.iep.get 1 with xfrc := false }).setDin 1 (armed 0x100 100 64)
    let xfrc := fun (v : State) (e : Ep) =>
      v.core.iepm.get e = true ∧ (v.iep.get e).xfrc = true ∧ v.core.diepmskXfrcm = true
    let empty := fun (v : State) (e : Ep) => v.core.iepm.get e = true ∧ v.txq.get e = [] ∧ v.core.txfem.get e = true
    DescsOk s ∧ DescsOk u ∧ xfrc s 1 ∧ empty s 1 ∧ (s.din.get 1).status = .armed ∧ ¬ xfrc u 1 ∧ empty u 1 ∧
    (u.din.get 1).status = .armed ∧ ¬ xfrc s 0 ∧ ¬ empty s 0 ∧ (s.din.get 0).status ≠ .armed :=
  ⟨descsOk_setDin rfl rfl (ok_of _ ⟨by decide, by decide, by decide⟩),
    descsOk_setDin rfl rfl (ok_of _ ⟨by decide, by decide, by decide⟩), by decide⟩

/-- A turn with nothing to wait: a reset is sampled, so no pop follows. -/
theorem witness_DispatcherRunsSelectedRows :
    let s := due .dispatch { rxState with core := { (std []).core with usbrst := true, iisoixfr := true } }
    (nextTurn (due .dispatch State.reset)).move = .dispatch ∧ (due .dispatch State.reset).inited = false ∧
    (nextTurn s).move = .dispatch ∧ s.inited = true ∧ Framed s.rxq ∧
    ¬ ((masked s).getLsbD iisoixfrBit = true ∧ (masked s).getLsbD ipxfrBit = true) ∧
    ((masked s).getLsbD usbrstBit = false → (masked s).getLsbD oepintBit = true → ∀ e, ¬ Pops s kindOutXferDone e ∧
      ¬ Pops s kindSetupDone e) :=
  ⟨by decide, by decide, by decide, by decide, rxState_framed, by decide, fun h => absurd h (by decide)⟩

/-- OEPINT is sampled for endpoint 0, and the iteration pops OUT_XFER_DONE of endpoint 1, whose descriptor is Armed. -/
def popState : State := due .dispatch (((((std []).setRxq [0x00060001]).setOep 0
  { (std []).oep.get 0 with xfrc := true }).setDout 0 (armed 0x100 8 8)).setDout 1 (armed 0x200 64 5))

/-- The event that the iteration's own pop raises waits, and the one that was sampled is serviced. -/
theorem witness_DispatcherRunsSelectedRows_pop :
    (nextTurn popState).move = .dispatch ∧ popState.inited = true ∧ Framed popState.rxq ∧
    (masked popState).getLsbD usbrstBit = false ∧ (masked popState).getLsbD oepintBit = true ∧
    (popState.core.oepm.get 0 = true ∧ (popState.oep.get 0).xfrc = true ∧ popState.core.doepmskXfrcm = true) ∧
    (popState.oep.get 1).xfrc = false ∧ (popState.oep.get 1).stup = false ∧ Pops popState kindOutXferDone 1 ∧
    ∃ t, step popState = .next t ∧ (t.dout.get 0).status = .complete 8 ∧ (t.oep.get 0).xfrc = false ∧
      (t.dout.get 1).status = .armed ∧ (t.oep.get 1).xfrc = true :=
  ⟨by decide, by decide, Framed.one _ (by decide), by decide, by decide, by decide, by decide, by decide,
    ⟨by decide, _, _, rfl, by decide, by decide⟩, _, rfl, by decide, by decide, by decide, by decide⟩

theorem witness_TerminalStatusOnlyFromArmed :
    (let s := due .dispatch (flagged.setDin 1 (armed 0x100 100 64));
      (nextTurn s).move = .dispatch ∧ (descriptor s .inn 1).status = .armed ∧ (descriptor s .out 1).status ≠ .armed ∧
      ∃ t, step s = .next t) ∧
    (let s := due .tick ((std []).setDout 1 ⟨.complete 5, 0, 8, 5⟩);
      (nextTurn s).move ≠ .dispatch ∧ ∃ t, step s = .next t ∧ (descriptor t .out 1).status = .complete 5) ∧
    (let s := due .tick ((std []).setDin 1 ⟨.failed .reset, 0, 8, 5⟩);
      (nextTurn s).move ≠ .dispatch ∧ ∃ t, step s = .next t ∧ (descriptor t .inn 1).status = .failed .reset) :=
  ⟨⟨by decide, by decide, by decide, _, rfl⟩, ⟨by decide, _, rfl, by decide⟩, by decide, _, rfl, by decide⟩

/-! ## Witnesses: the bus agent -/

/-- Whether a bus move's preconditions hold is decided. -/
def busReadyDec (s : State) (m : BusMove) : Decidable (BusReady s m) := by
  cases m <;> unfold BusReady <;> dsimp only <;> infer_instance

/-- Each precondition of a bus move fails alone: the bus; the room of the entry (one word short), and of the entry and
OUT_XFER_DONE (18 words for the last packet, and 17); a packet that is too long; PKTCNT 0; USBAEP 0; NAK. -/
theorem witness_BusMovesNeedTheBus_out :
    let full : List Byte := List.replicate 64 0
    let m := BusMove.out 1 full 0 0
    let roomy := fun (rxfd : BitVec 16) (pktcnt : BitVec 10) =>
      due (.bus m) { outArmed pktcnt with core := { (std []).core with rxfd := rxfd } }
    let bank := fun (b : OutBank) => due (.bus m) ((outArmed 2).setOep 1 b)
    let b := (outArmed 2).oep.get 1
    (nextTurn (roomy 17 2)).move = .bus m ∧ BusReady (roomy 17 2) m ∧ ¬ BusReady (roomy 16 2) m ∧
    BusReady (roomy 18 1) m ∧ ¬ BusReady (roomy 17 1) m ∧ ¬ BusReady (roomy 64 0) m ∧
    ¬ BusReady (due (.bus m) State.reset) m ∧
    ¬ BusReady (outArmed 2) (.out 1 (List.replicate 65 0) 0 0) ∧ ¬ BusReady (bank { b with usbaep := false }) m ∧
    ¬ BusReady (bank { b with nak := true }) m := by
  let := busReadyDec
  decide

/-- A SETUP packet that is not of eight bytes, to a bulk endpoint, with no room; "setup phase done" with none pending; an IN
packet that is not whole in its FIFO, and under the global NAK. -/
theorem witness_BusMovesNeedTheBus_others :
    let eight : List Byte := List.replicate 8 0
    BusReady (std []) (.setup 0 eight 0) ∧ ¬ BusReady (std []) (.setup 0 (List.replicate 7 0) 0) ∧
    ¬ BusReady (std []) (.setup 1 eight 0) ∧
    ¬ BusReady { std [] with core := { (std []).core with rxfd := 2 } } (.setup 0 eight 0) ∧
    BusReady { std [] with setupPending := (PerEp.all false).set 0 true } (.setupdone 0) ∧
    ¬ BusReady (std []) (.setupdone 0) ∧ BusReady inReady (.take 1) ∧
    ¬ BusReady (inReady.setTxq 1 [0x44332211]) (.take 1) ∧
    ¬ BusReady { inReady with core := (std []).core } (.take 1) := by
  let := busReadyDec
  decide

theorem witness_ObserveNeedsAWrittenResult :
    let s := due (.observe 0) (std [0x08000000])
    let u := due (.observe 0) { std [] with tasks := [⟨[], 0, .done, some 5⟩] }
    ((nextTurn s).move = .observe 0 ∧ s.tasks[0]? = some (Task.start [0x08000000])) ∧
    ((nextTurn u).move = .observe 0 ∧ u.tasks[0]? = some ⟨[], 0, .done, some 5⟩) ∧
    ((nextTurn (due (.observe 7) s)).move = .observe 7 ∧ s.tasks[7]? = none) := by decide

theorem witness_BusSignalsAndTick :
    ([.reset, .enumdone, .iso .inn, .iso .out, .wake] : List BusMove).all (fun m =>
      let s := due (.bus m) (std [])
      decide ((nextTurn s).move = .bus m) && s.inited && !s.core.sdis && !s.core.clkgate) = true ∧
    (nextTurn (due .tick (std []))).move = .tick := by decide

/-- Both ways an OUT packet can go, each with just enough room. -/
theorem witness_BusOutEffect :
    let full : List Byte := List.replicate 64 0xAA
    let roomy := fun (rxfd : BitVec 16) (pktcnt : BitVec 10) =>
      due (.bus (.out 1 full 3 15)) { outArmed pktcnt with core := { (std []).core with rxfd := rxfd } }
    let ends := fun (s : State) => (s.oep.get 1).pktcnt.toNat = 1 ∨ full.length < mpsOut s 1
    let enabled := fun (s : State) =>
      (nextTurn s).move = .bus (.out 1 full 3 15) ∧ s.inited = true ∧ s.core.sdis = false ∧ s.core.clkgate = false ∧
      (s.oep.get 1).usbaep = true ∧ (s.oep.get 1).epena = true ∧ (s.oep.get 1).nak = false ∧
      (s.oep.get 1).stall = false ∧ 0 < (s.oep.get 1).pktcnt.toNat ∧ full.length ≤ mpsOut s 1
    (enabled (roomy 17 2) ∧ ¬ ends (roomy 17 2) ∧
      (roomy 17 2).rxq.length + 1 + wordsFor full.length = (roomy 17 2).core.rxfd.toNat) ∧
    (enabled (roomy 18 1) ∧ ends (roomy 18 1) ∧
      (roomy 18 1).rxq.length + 1 + wordsFor full.length + 1 = (roomy 18 1).core.rxfd.toNat) := by decide

theorem witness_BusSetupStage :
    let base := { std [] with core := { (std []).core with rxfd := 3 }, setupPending := (PerEp.all false).set 0 true }
    let s := due (.bus (.setup 0 (List.replicate 8 6) 15)) base
    let u := due (.bus (.setupdone 0)) (base.setRxq [1, 2])
    (s.inited = true ∧ s.core.sdis = false ∧ s.core.clkgate = false ∧
      (nextTurn s).move = .bus (.setup 0 (List.replicate 8 6) 15) ∧ (s.oep.get 0).usbaep = true ∧
      (s.oep.get 0).eptyp = .control ∧ (List.replicate 8 (6 : Byte)).length = 8 ∧
      s.rxq.length + 3 ≤ s.core.rxfd.toNat) ∧
    (u.inited = true ∧ u.core.sdis = false ∧ u.core.clkgate = false ∧ (nextTurn u).move = .bus (.setupdone 0) ∧
      u.setupPending.get 0 = true ∧ u.rxq.length + 1 ≤ u.core.rxfd.toNat) := by decide

/-- The last packet, and one of two. -/
theorem witness_BusInEffect :
    let two : State := (inReady.setTxq 1 (List.replicate 16 0)).setIep 1 { inReady.iep.get 1 with
      xfrsiz := 100, pktcnt := 2 }
    let enabled := fun (s : State) =>
      (nextTurn s).move = .bus (.take 1) ∧ s.inited = true ∧ s.core.sdis = false ∧ s.core.clkgate = false ∧
      (s.iep.get 1).usbaep = true ∧ (s.iep.get 1).epena = true ∧ (s.iep.get 1).nak = false ∧
      (s.iep.get 1).stall = false ∧ s.core.ginnak = false ∧ 0 < (s.iep.get 1).pktcnt.toNat ∧
      wordsFor (min (mpsIn s 1) (s.iep.get 1).xfrsiz.toNat) ≤ (s.txq.get 1).length
    (enabled (due (.bus (.take 1)) inReady) ∧ (inReady.iep.get 1).pktcnt.toNat = 1) ∧
    (enabled (due (.bus (.take 1)) two) ∧ (two.iep.get 1).pktcnt.toNat ≠ 1) := by decide

/-! ## Witnesses: from one end to the other -/

/-- A packet longer than what is left of the request. -/
theorem witness_OutPacketReachesTheBuffer :
    let s := (outArmed 2).setDout 1 (armed 0x100 128 100)
    let d := s.dout.get 1
    MemOk s ∧ s.rxq = [] ∧ busEnabled s (.out 1 (List.replicate 64 0xAA) 0 0) = true ∧ d.status = .armed ∧
    d.off.toNat < d.req.toNat ∧ d.buf.toNat + d.req.toNat ≤ memBytes Config.default := by unfold MemOk; decide

/-- A request of a whole packet and a whole FIFO, the buffer ending at 2^32. -/
theorem witness_InPacketCarriesTheBuffer :
    let s : State := { (std []).setDin 1 (armed 0xFFFFFFC0 64 0) with
      core := { (std []).core with ginnak := false, txfem := (PerEp.all false).set 1 true }
      iep := (std []).iep.set 1 { (std []).iep.get 1 with xfrsiz := 64, pktcnt := 1, epena := true } }
    let d := s.din.get 1
    let b := s.iep.get 1
    s.core.iepm.get 1 = true ∧ s.txq.get 1 = [] ∧ s.core.txfem.get 1 = true ∧ d.status = .armed ∧ d.off = 0 ∧
    d.buf.toNat + d.req.toNat ≤ memBytes Config.default ∧ d.req.toNat ≤ mpsIn s 1 ∧ d.req.toNat ≤ 4 * (s.core.txfd.get 1).toNat ∧
    b.xfrsiz.toNat = d.req.toNat ∧ 0 < b.pktcnt.toNat ∧ b.usbaep = true ∧ b.epena = true ∧ b.nak = false ∧
    b.stall = false ∧ s.core.ginnak = false ∧ s.inited = true ∧ s.core.sdis = false ∧ s.core.clkgate = false := by
  decide

/-! ## Witnesses: invariants

One state meets them all: a receive entry, an Armed OUT buffer, and an Armed IN buffer beside it. -/

/-- The state, and the move that its next turn makes. -/
def busy (m : Machine.Move) : State := due m (rxState.setDin 1 (armed 0x105 8 0))

theorem witness_PowerOnValues : (State.powerOn Config.default [[0x08000000], []] 7 []).tasks[1]? = some (Task.start []) := by
  decide

theorem witness_FifoRamKept :
    AllocFits (busy .dispatch) ∧ FifosFit (busy .dispatch) ∧ ∃ t, step (busy .dispatch) = .next t :=
  ⟨by unfold AllocFits AllocMeets; decide, by unfold FifosFit; decide, _, rfl⟩

theorem witness_ReceiveFifoStaysFramed : RxOk (busy .dispatch) ∧ ∃ t, step (busy .dispatch) = .next t :=
  ⟨⟨rxState_framed, by decide⟩, _, rfl⟩

theorem witness_SoundDescriptorsNeverStop : DescsOk (busy .dispatch) := by
  intro k
  refine ⟨?_, (rxState_descs k).2⟩
  have : (busy .dispatch).din = (PerEp.all Descriptor.empty).set 1 (armed 0x105 8 0) := rfl
  rw [this, PerEp.get_set, PerEp.get_all]
  split
  · exact ok_of _ ⟨by decide, by decide, by decide⟩
  · exact ok_of _ trivial

/-- Ranges where one ends before the other begins are apart. -/
theorem apart_of {b1 n1 b2 n2 : Nat} (h : b1 + n1 ≤ b2 ∨ b2 + n2 ≤ b1) : Apart b1 n1 b2 n2 := by
  intro a h1 h2 h3 h4; omega

theorem witness_ArmedBuffersStayApart :
    (BuffersApart (busy .dispatch) ∧ ((busy .dispatch).dout.get 1).status = .armed ∧
      ((busy .dispatch).din.get 1).status = .armed) ∧ ∃ t, step (busy .dispatch) = .next t := by
  refine ⟨⟨⟨fun e k he hk => apart_of ?_, fun e k hne he hk => apart_of ?_⟩, by decide⟩, _, rfl⟩
  · revert e k; decide
  · revert e k; decide

theorem witness_RegistersKeepTheirInvariants :
    MapperOk (busy .dispatch) ∧ BaselineOk (busy .dispatch) ∧ (busy .dispatch).inited = true ∧
    Ep0FieldsOk (busy .dispatch) ∧ ∃ t, step (busy .dispatch) = .next t :=
  ⟨by unfold MapperOk SizeOk; decide, by unfold BaselineOk; decide, by decide, by unfold Ep0FieldsOk; decide, _, rfl⟩

/-- The clock at the end of its range, and a task that waits since then. -/
theorem witness_RegistersKeepTheirInvariants_clock :
    let s := due .tick (waiting .out 1 0xFFFFFFFF 50 0xFFFFFFFF (std []))
    ClockOk s ∧ ∃ t, step s = .next t ∧ t.now = 0 := by
  refine ⟨⟨by decide, fun k hk dir e t0 tmo hp => ?_⟩, _, rfl, by decide⟩
  obtain rfl : k = ⟨[0x08000000], 0, .waiting .out 1 0xFFFFFFFF 50, none⟩ := List.mem_singleton.1 hk
  cases hp
  decide

theorem witness_OnlyArmedBuffersAreWritten :
    MemOk (busy .dispatch) ∧ ∃ t, step (busy .dispatch) = .next t ∧
      t.mem.readByte 0x104 ≠ (busy .dispatch).mem.readByte 0x104 :=
  ⟨by unfold MemOk; decide, _, rfl, by decide⟩

/-- A run that has refused and faulted, and whose one task is Done. -/
theorem witness_StickyAndAppendOnly :
    let s := due (.task 0) { std [] with
      refused := true, fault := some (.unwrittenResult 0), tasks := [⟨[], 0, .done, some 5⟩] }
    s.inited = true ∧ s.fault = some (.unwrittenResult 0) ∧ s.refused = true ∧ (nextTurn s).move ≠ .tick ∧
    s.tasks[0]? = some ⟨[], 0, .done, some 5⟩ ∧
    ∃ t, step s = .next t ∧ t.tasks[0]? = some ⟨[], 0, .done, some 5⟩ :=
  ⟨by decide, by decide, by decide, by decide, by decide, _, rfl, by decide⟩

theorem witness_OnlyInitBringsUp :
    let s := due (.task 0) { State.reset with tasks := [Task.start [0x10000000]] }
    QuietBeforeInit s ∧ s.inited = false ∧ ∃ t, step s = .next t ∧ t.inited = false :=
  ⟨by unfold QuietBeforeInit; decide, by decide, _, rfl, by decide⟩

/-- Two launches whose unspecified registers differ. -/
theorem witness_UnspecifiedFieldsNeverRead :
    let s := due (.task 0) { State.reset with tasks := [Task.start [0x08000000]] }
    let u : State := { s with rxq := [1], core := { s.core with gint := true, gintmsk := 0xFFFFFFFF }, busActive := true }
    PreInitEq s u ∧ QuietBeforeInit s ∧ s ≠ u :=
  ⟨by unfold PreInitEq; decide, by unfold QuietBeforeInit; decide, by decide⟩

theorem witness_SingleTaskNeverWaitsOnIdle :
    let s := due (.task 0) ((waiting .out 1 0 50 51 (std [])).setDout 1 (armed 0 64 0))
    let u := due (.task 0) { std [] with tasks := [⟨[], 0, .done, some 5⟩] }
    (WaitedNotIdle s ∧ ∃ t, step s = .next t) ∧ (DoneAtEnd u ∧ ∃ t, step u = .next t) := by
  refine ⟨⟨⟨by decide, fun k hk dir e t0 tmo hp => ?_⟩, _, rfl⟩, by unfold DoneAtEnd; decide, _, rfl⟩
  obtain rfl : k = ⟨[0x08000000], 0, .waiting .out 1 0 50, none⟩ := List.mem_singleton.1 hk
  cases hp
  decide

end Sys2Proof.Tests
end

/-! SUPPORT. Proofs of the endpoint configuration statements (41_endpoint_config R96, R97): the two configure commands are
one shared chain of checks, followed by the writes of their own bank. -/

namespace Sys2Proof.Machine

/-! ## Rules of the shared operations -/

theorem refuses_of_exec {i : Instr} {r : RefuseReason} {s : State} (h : exec i s = .next (refuse r s)) :
    Refuses i r s := ⟨_, h, refuse_only r s⟩

theorem advance_only (s : State) : OnlyChanges [.tasks] s (advance s) :=
  fun p hp => by cases p <;> simp_all [Same]

/-! ## The value of MPSIZ -/

/-- The sizes that a configure command takes (41_endpoint_config R96, R97). -/
def MpsAllowed (cfg : Config) (e : Ep) (mps : BitVec 11) : Prop :=
  (e = 0 ∧ mps ∈ cfg.mpsEp0Set ∧ mps ∈ [8, 16, 32, 64]) ∨ (e ≠ 0 ∧ 1 ≤ mps.toNat ∧ mps.toNat ≤ cfg.mpsMax.toNat)

/-- `v` is what MPSIZ holds for the size `mps`: the code at endpoint 0, the byte count elsewhere (30_encoding R80). -/
def MpsizHolds (e : Ep) (mps v : BitVec 11) : Prop :=
  (e ≠ 0 → v = mps) ∧
  (e = 0 → (mps = 8 → v = 3) ∧ (mps = 16 → v = 2) ∧ (mps = 32 → v = 1) ∧ (mps = 64 → v = 0))

/-- The sizes with a code are 8, 16, 32 and 64. -/
theorem mpsCode_eq_none {mps : BitVec 11} (h : mps ∉ ([8, 16, 32, 64] : List (BitVec 11))) :
    mpsCode mps.toNat = none := by
  simp only [List.mem_cons, List.not_mem_nil, or_false, not_or, ← BitVec.toNat_inj] at h
  simp_all [mpsCode]

/-- Endpoint 0's code of a size that has one, which decodes to the size. -/
theorem mpsCode_of_mem {mps : BitVec 11} (h : mps ∈ ([8, 16, 32, 64] : List (BitVec 11))) :
    ∃ c, mpsCode mps.toNat = some c ∧ MpsizHolds 0 mps (c.setWidth 11) ∧ mpsDecode 0 (c.setWidth 11) = mps.toNat := by
  simp only [List.mem_cons, List.not_mem_nil, or_false] at h
  unfold MpsizHolds
  obtain rfl | rfl | rfl | rfl := h
  · exact ⟨3, by decide⟩
  · exact ⟨2, by decide⟩
  · exact ⟨1, by decide⟩
  · exact ⟨0, by decide⟩

theorem mpsizFor_of_not_control (cfg : Config) {ty : EpType} (mps : BitVec 11) (h : ty ≠ .control) :
    mpsizFor cfg 0 ty mps = .error .ep0NotControl := by
  simp [mpsizFor, h]

theorem mpsizFor_of_not_allowed {cfg : Config} {e : Ep} {ty : EpType} {mps : BitVec 11} (ht : e = 0 → ty = .control)
    (h : ¬ MpsAllowed cfg e mps) : mpsizFor cfg e ty mps = .error .badMps := by
  by_cases he : e = 0
  · subst he
    by_cases hm : mps ∈ cfg.mpsEp0Set
    · have hc : mpsCode mps.toNat = none := mpsCode_eq_none fun hl => h (.inl ⟨rfl, hm, hl⟩)
      simp [mpsizFor, ht rfl, hm, hc]
    · simp [mpsizFor, ht rfl, hm]
  · have hr : mps.toNat < 1 ∨ mps.toNat > cfg.mpsMax.toNat := by
      by_contra hn
      exact h (.inr ⟨he, by omega, by omega⟩)
    rw [mpsizFor, if_neg he, if_pos hr]

theorem mpsizFor_of_allowed {cfg : Config} {e : Ep} {ty : EpType} {mps : BitVec 11} (ht : e = 0 → ty = .control)
    (h : MpsAllowed cfg e mps) :
    ∃ v, mpsizFor cfg e ty mps = .ok v ∧ MpsizHolds e mps v ∧ mpsDecode e v = mps.toNat := by
  obtain ⟨rfl, hm, hl⟩ | ⟨he, hlo, hhi⟩ := h
  · obtain ⟨c, hc, hv⟩ := mpsCode_of_mem hl
    exact ⟨c.setWidth 11, by simp [mpsizFor, ht rfl, hm, hc], hv⟩
  · have hr : ¬ (mps.toNat < 1 ∨ mps.toNat > cfg.mpsMax.toNat) := by omega
    exact ⟨mps, by rw [mpsizFor, if_neg he, if_neg hr], ⟨fun _ => rfl, fun h0 => absurd h0 he⟩, by
      rw [mpsDecode, if_neg he]⟩

/-! ## The chain of checks -/

/-- The checks that the two configure commands share, on the endpoint's descriptor `d` of the direction, and the bank's
writes `bank` past them. -/
def configureBank (d : Descriptor) (mpsiz : Except RefuseReason (BitVec 11)) (bank : BitVec 11 → State → State)
    (s : State) : State :=
  if !s.inited then refuse .notInited s
  else if d.isArmed then refuse .reconfigureInFlight s
  else
    match mpsiz with
    | .error r => refuse r s
    | .ok v => advance (bank v s)

theorem exec_configureInEp (e : Ep) (ty : EpType) (mps : BitVec 11) (s : State) :
    exec (.configureInEp e ty mps) s =
      .next (configureBank (s.din.get e) (mpsizFor s.cfg e ty mps) (mapInEp e ty) s) := by
  rfl

theorem exec_configureOutEp (e : Ep) (ty : EpType) (mps : BitVec 11) (s : State) :
    exec (.configureOutEp e ty mps) s =
      .next (configureBank (s.dout.get e) (mpsizFor s.cfg e ty mps) (mapOutEp e ty) s) := by
  rfl

section Checks

variable {d : Descriptor} {bank : BitVec 11 → State → State} {s : State}

theorem configureBank_of_not_inited (m : Except RefuseReason (BitVec 11)) (hs : s.inited = false) :
    configureBank d m bank s = refuse .notInited s := by
  simp [configureBank, hs]

theorem configureBank_of_armed (m : Except RefuseReason (BitVec 11)) (hs : s.inited = true) (ha : d.status = .armed) :
    configureBank d m bank s = refuse .reconfigureInFlight s := by
  simp [configureBank, hs, (d.isArmed_iff).2 ha]

theorem configureBank_error (r : RefuseReason) (hs : s.inited = true) (ha : d.status ≠ .armed) :
    configureBank d (.error r) bank s = refuse r s := by
  simp [configureBank, hs, (d.not_isArmed_iff).2 ha]

theorem configureBank_ok (v : BitVec 11) (hs : s.inited = true) (ha : d.status ≠ .armed) :
    configureBank d (.ok v) bank s = advance (bank v s) := by
  simp [configureBank, hs, (d.not_isArmed_iff).2 ha]

/-- What a configure command does: its refusals in their order, else the bank's writes with the value of MPSIZ. -/
theorem configureBank_outcomes {i : Instr} {e : Ep} {ty : EpType} {mps : BitVec 11}
    (hx : exec i s = .next (configureBank d (mpsizFor s.cfg e ty mps) bank s)) :
    (s.inited = false → Refuses i .notInited s) ∧
    (s.inited = true →
      (d.status = .armed → Refuses i .reconfigureInFlight s) ∧
      (d.status ≠ .armed → e = 0 → ty ≠ .control → Refuses i .ep0NotControl s) ∧
      (d.status ≠ .armed → (e = 0 → ty = .control) → ¬ MpsAllowed s.cfg e mps → Refuses i .badMps s) ∧
      (d.status ≠ .armed → (e = 0 → ty = .control) → MpsAllowed s.cfg e mps →
        ∃ v, exec i s = .next (advance (bank v s)) ∧ MpsizHolds e mps v ∧ mpsDecode e v = mps.toNat)) := by
  refine ⟨fun hs => ?notInited, fun hs => ⟨fun ha => ?armed, fun ha he ht => ?notControl, fun ha ht hm => ?badMps,
    fun ha ht hm => ?maps⟩⟩
  case notInited => exact refuses_of_exec (by rw [hx, configureBank_of_not_inited _ hs])
  case armed => exact refuses_of_exec (by rw [hx, configureBank_of_armed _ hs ha])
  case notControl =>
    subst he
    exact refuses_of_exec (by rw [hx, mpsizFor_of_not_control s.cfg mps ht, configureBank_error _ hs ha])
  case badMps => exact refuses_of_exec (by rw [hx, mpsizFor_of_not_allowed ht hm, configureBank_error _ hs ha])
  case maps =>
    obtain ⟨v, hv, hvs⟩ := mpsizFor_of_allowed ht hm
    exact ⟨v, by rw [hx, hv, configureBank_ok v hs ha], hvs⟩

end Checks

/-! ## The bank's writes -/

@[simp] theorem mapInEp_iep (e : Ep) (ty : EpType) (v : BitVec 11) (s : State) : (mapInEp e ty v s).iep = s.iep.set e
    { s.iep.get e with mpsiz := v, eptyp := ty, txfnum := BitVec.ofNat 4 e.val, usbaep := true } := rfl

@[simp] theorem mapOutEp_oep (e : Ep) (ty : EpType) (v : BitVec 11) (s : State) : (mapOutEp e ty v s).oep = s.oep.set e
    { s.oep.get e with mpsiz := v, eptyp := ty, usbaep := true } := rfl

@[simp] theorem mapInEp_core (e : Ep) (ty : EpType) (v : BitVec 11) (s : State) :
    (mapInEp e ty v s).core = { s.core with iepm := s.core.iepm.set e true } := rfl

@[simp] theorem mapOutEp_core (e : Ep) (ty : EpType) (v : BitVec 11) (s : State) :
    (mapOutEp e ty v s).core = { s.core with oepm := s.core.oepm.set e true } := rfl

theorem mapInEp_only (e : Ep) (ty : EpType) (v : BitVec 11) (s : State) :
    OnlyChanges [.iep, .core] s (mapInEp e ty v s) :=
  fun p hp => by cases p <;> simp_all [Same, mapInEp]

theorem mapOutEp_only (e : Ep) (ty : EpType) (v : BitVec 11) (s : State) :
    OnlyChanges [.oep, .core] s (mapOutEp e ty v s) :=
  fun p hp => by cases p <;> simp_all [Same, mapOutEp]

theorem PerEp.sameBut_set {α : Type} (t : PerEp α) (e : Ep) (a : α) : SameBut e t (t.set e a) :=
  fun k hk => t.get_set_of_ne e k a hk

/-- A command that writes the parts `ps` and then completes changes those and the tasks. -/
theorem OnlyChanges.advance {ps : List Part} {s u : State} (h : OnlyChanges ps s u) :
    OnlyChanges (ps ++ [.tasks]) s (advance u) :=
  (h.mono fun _ hp => List.mem_append_left _ hp).trans ((advance_only u).mono fun _ hp => List.mem_append_right _ hp)

/-! ## The statements -/

/-- Settles O16: the shared chain of checks with the IN descriptor, then the writes of the IN bank. -/
theorem configureInEpMapsTheBank : Obligations.ConfigureInEpMapsTheBank := by
  unfold Obligations.ConfigureInEpMapsTheBank
  intro e ty mps s
  obtain ⟨hinit, hchecks⟩ := configureBank_outcomes (exec_configureInEp e ty mps s)
  refine ⟨hinit, fun hs => ?_⟩
  obtain ⟨harmed, hctl, hbad, hmaps⟩ := hchecks hs
  refine ⟨harmed, hctl, hbad, fun ha ht hm => ?_⟩
  obtain ⟨v, hx, hv, hdec⟩ := hmaps ha ht hm
  refine ⟨_, hx, ⟨v, by simp, hv⟩, ?mps, ?others, by simp, ?completed, (mapInEp_only e ty v s).advance⟩
  case mps => simpa [mpsIn] using hdec
  case others => simpa using s.iep.sameBut_set e _
  case completed => exact advance_completed rfl rfl

/-- Settles O17: the shared chain of checks with the OUT descriptor, then the writes of the OUT bank. -/
theorem configureOutEpMapsTheBank : Obligations.ConfigureOutEpMapsTheBank := by
  unfold Obligations.ConfigureOutEpMapsTheBank
  intro e ty mps s
  obtain ⟨hinit, hchecks⟩ := configureBank_outcomes (exec_configureOutEp e ty mps s)
  refine ⟨hinit, fun hs => ?_⟩
  obtain ⟨harmed, hctl, hbad, hmaps⟩ := hchecks hs
  refine ⟨harmed, hctl, hbad, fun ha ht hm => ?_⟩
  obtain ⟨v, hx, hv, hdec⟩ := hmaps ha ht hm
  refine ⟨_, hx, ⟨v, by simp, hv⟩, ?mps, ?others, by simp, ?completed, (mapOutEp_only e ty v s).advance⟩
  case mps => simpa [mpsOut] using hdec
  case others => simpa using s.oep.sameBut_set e _
  case completed => exact advance_completed rfl rfl

end Sys2Proof.Machine

/-! SUPPORT. The frame of every shared operation, with what it does not undo: from these, what an iteration of the
dispatcher and a move of the bus agent leave. -/

namespace Sys2Proof.Machine

/-! ## What is never undone -/

/-- `t` undoes nothing of `s`: `inited`, the first fault and the refused mark stay set, the two logs only grow, and the
parameters are the same (10_state R19, R43, R45, R49, 00_scope R7). -/
structure Sticky (s t : State) : Prop where
  inited : s.inited = true → t.inited = true
  fault : ∀ f, s.fault = some f → t.fault = some f
  refused : s.refused = true → t.refused = true
  events : s.events <+: t.events
  busTx : s.busTx <+: t.busTx
  cfg : t.cfg = s.cfg

/-- `t` differs from `s` in the named parts alone, and undoes nothing of it. -/
structure Grows (ps : List Part) (s t : State) : Prop where
  only : OnlyChanges ps s t
  sticky : Sticky s t

/-- The parts that a step may not change freely. -/
def stickyParts : List Part := [.cfg, .inited, .fault, .refused, .events, .busTx]

theorem Sticky.trans {s t u : State} (h : Sticky s t) (k : Sticky t u) : Sticky s u where
  inited hs := k.inited (h.inited hs)
  fault f hf := k.fault f (h.fault f hf)
  refused hs := k.refused (h.refused hs)
  events := h.events.trans k.events
  busTx := h.busTx.trans k.busTx
  cfg := k.cfg.trans h.cfg

theorem Grows.of_only {ps : List Part} {s t : State} (h : OnlyChanges ps s t) (hps : ∀ p ∈ stickyParts, p ∉ ps) :
    Grows ps s t := by
  have hcfg : t.cfg = s.cfg := h .cfg (hps .cfg (by decide))
  have hinit : t.inited = s.inited := h .inited (hps .inited (by decide))
  have hfault : t.fault = s.fault := h .fault (hps .fault (by decide))
  have hrefused : t.refused = s.refused := (h .refused (hps .refused (by decide))).1
  have hevents : t.events = s.events := h .events (hps .events (by decide))
  have htx : t.busTx = s.busTx := h .busTx (hps .busTx (by decide))
  exact ⟨h, ⟨fun hs => hinit.trans hs, fun f hf => hfault.trans hf, fun hs => hrefused.trans hs,
    hevents ▸ List.prefix_rfl, htx ▸ List.prefix_rfl, hcfg⟩⟩

theorem Grows.mono {ps qs : List Part} {s t : State} (h : Grows ps s t) (hpq : ∀ p ∈ ps, p ∈ qs) : Grows qs s t :=
  ⟨h.only.mono hpq, h.sticky⟩

theorem Grows.refl (ps : List Part) (s : State) : Grows ps s s :=
  (Grows.of_only (.refl [] s) (by decide)).mono (by simp)

theorem Grows.trans {ps qs : List Part} {s t u : State} (h : Grows ps s t) (k : Grows qs t u) :
    Grows (ps ++ qs) s u :=
  ⟨(h.only.mono fun _ hp => List.mem_append_left _ hp).trans (k.only.mono fun _ hp => List.mem_append_right _ hp),
    h.sticky.trans k.sticky⟩

/-! ## The shared operations -/

theorem setCore_grows (c : CoreRegs) (s : State) : Grows [.core] s (s.setCore c) :=
  .of_only (fun p hp => by cases p <;> simp_all [Same]) (by decide)

theorem setIep_grows (e : Ep) (b : InBank) (s : State) : Grows [.iep] s (s.setIep e b) :=
  .of_only (fun p hp => by cases p <;> simp_all [Same]) (by decide)

theorem setOep_grows (e : Ep) (b : OutBank) (s : State) : Grows [.oep] s (s.setOep e b) :=
  .of_only (fun p hp => by cases p <;> simp_all [Same]) (by decide)

theorem setRxq_grows (q : List Word) (s : State) : Grows [.rxq] s (s.setRxq q) :=
  .of_only (fun p hp => by cases p <;> simp_all [Same]) (by decide)

theorem setTxq_grows (e : Ep) (q : List Word) (s : State) : Grows [.txq] s (s.setTxq e q) :=
  .of_only (fun p hp => by cases p <;> simp_all [Same]) (by decide)

theorem setDin_grows (e : Ep) (d : Descriptor) (s : State) : Grows [.din] s (s.setDin e d) :=
  .of_only (fun p hp => by cases p <;> simp_all [Same]) (by decide)

theorem setDout_grows (e : Ep) (d : Descriptor) (s : State) : Grows [.dout] s (s.setDout e d) :=
  .of_only (fun p hp => by cases p <;> simp_all [Same]) (by decide)

theorem setMem_grows (m : Memory) (s : State) : Grows [.mem] s (s.setMem m) :=
  .of_only (fun p hp => by cases p <;> simp_all [Same]) (by decide)

theorem emit_grows (ev : BusEvent) (s : State) : Grows [.events] s (s.emit ev) where
  only p hp := by cases p <;> simp_all [Same]
  sticky := ⟨id, fun _ => id, id, List.prefix_append _ _, List.prefix_rfl, rfl⟩

theorem refuse_grows (r : RefuseReason) (s : State) : Grows [.refused] s (refuse r s) where
  only := (refuse_only r s).2.2
  sticky := ⟨id, fun _ => id, fun _ => rfl, List.prefix_rfl, List.prefix_rfl, rfl⟩

theorem raise_grows (f : FaultReason) (s : State) : Grows [.fault] s (raise f s) where
  only := (raise_only f s).2
  sticky := ⟨id, fun g hg => by rw [raise_fault, hg]; rfl, id, List.prefix_rfl, List.prefix_rfl, rfl⟩

theorem onCur_grows (f : Task → Task) (s : State) : Grows [.tasks] s (onCur f s) :=
  .of_only (fun p hp => by cases p <;> simp_all [Same]) (by decide)

theorem tick_grows (s : State) : Grows [.now] s (tick s) :=
  .of_only (fun p hp => by cases p <;> simp_all [Same, tick]) (by decide)

theorem afterTurn_grows (s : State) : Grows [.draws, .sched] s (afterTurn s) :=
  .of_only (afterTurn_only s) (by decide)

theorem taskState_grows (j : Nat) (s : State) : Grows [.cur, .draws, .sched] s (taskState j s) :=
  .of_only (((afterTurn_only s).mono (by decide)).trans fun p hp => by cases p <;> simp_all [Same, taskState])
    (by decide)

theorem rejectWord_grows (r : DecodeRefusal) (s : State) : Grows [.refused] s (rejectWord r s) := by
  unfold rejectWord
  split
  · exact refuse_grows _ s
  · exact .refl _ s

theorem observe_grows (j : Nat) (s : State) : Grows [.fault] s (observe j s) := by
  unfold observe
  split
  · split
    · exact raise_grows _ s
    · exact .refl _ s
  · exact .refl _ s

/-! ## The bus agent -/

/-- What a move of the bus agent may change (45_bus_agent R138 to R145). -/
def busParts : List Part := [.core, .iep, .oep, .rxq, .txq, .setupPending, .busTx]

theorem busEffect_only (m : BusMove) (s : State) : OnlyChanges busParts s (busEffect s m) := by
  intro p hp
  cases m with
  | reset | enumdone | wake => cases p <;> simp_all [Same, busParts, busEffect]
  | iso dir => cases dir <;> cases p <;> simp_all [Same, busParts, busEffect]
  | out e data dpid frm => cases p <;> simp_all [Same, busParts, busEffect, busOut]
  | setup e data frm =>
    unfold busEffect busSetup
    simp only
    split <;> cases p <;> simp_all [Same, busParts, clearStall0]
  | setupdone e => cases p <;> simp_all [Same, busParts, busEffect, busSetupdone]
  | take e => cases p <;> simp_all [Same, busParts, busEffect, busTake]

/-- Only a packet that the host takes is logged (10_state R45). -/
theorem busEffect_busTx (m : BusMove) (s : State) : s.busTx <+: (busEffect s m).busTx := by
  cases m with
  | take e => exact List.prefix_append _ _
  | reset | enumdone | wake => exact List.prefix_rfl
  | iso dir => cases dir <;> exact List.prefix_rfl
  | out e data dpid frm => exact List.prefix_rfl
  | setup e data frm =>
    unfold busEffect busSetup
    simp only
    split <;> exact List.prefix_rfl
  | setupdone e => exact List.prefix_rfl

theorem busEffect_grows (m : BusMove) (s : State) : Grows busParts s (busEffect s m) where
  only := busEffect_only m s
  sticky := by
    have h := busEffect_only m s
    have hcfg : (busEffect s m).cfg = s.cfg := h .cfg (by decide)
    have hinit : (busEffect s m).inited = s.inited := h .inited (by decide)
    have hfault : (busEffect s m).fault = s.fault := h .fault (by decide)
    have hrefused : (busEffect s m).refused = s.refused := (h .refused (by decide)).1
    have hevents : (busEffect s m).events = s.events := h .events (by decide)
    exact ⟨hinit.trans, fun f => hfault.trans, hrefused.trans, hevents ▸ List.prefix_rfl, busEffect_busTx m s, hcfg⟩

/-! ## The dispatcher -/

/-- What an iteration of the dispatcher may change (42_bus_event_handler R106 to R113). -/
def dispatcherParts : List Part :=
  [.core, .iep, .oep, .rxq, .txq, .din, .dout, .busActive, .events, .setupPending, .mem, .fault]

theorem readPacket_grows (dst size : Nat) (s : State) :
    (readPacket dst size s).Within (Grows [.mem, .rxq, .fault] s) := by
  have hpop : ∀ m q, Grows [.mem, .rxq] s ((s.setMem m).setRxq q) :=
    fun m q => (setMem_grows m s).trans (setRxq_grows q _)
  obtain ⟨-, h⟩ | ⟨-, -, h⟩ | ⟨-, -, h⟩ := readPacket_cases dst size s <;> rw [h]
  · trivial
  · exact (hpop _ _).mono (by decide)
  · exact (hpop _ _).trans (raise_grows _ _)

theorem dumpPacket_grows (size : Nat) (s : State) : (dumpPacket size s).Within (Grows [.rxq, .fault] s) := by
  obtain ⟨-, h⟩ | ⟨-, h⟩ := dumpPacket_cases size s <;> rw [h]
  · exact (setRxq_grows _ s).mono (by decide)
  · exact (setRxq_grows _ s).trans (raise_grows _ _)

theorem popXferDone_grows (n : BitVec 4) (s : State) : Grows [.oep] s (popXferDone n s) := by
  unfold popXferDone
  split
  · exact setOep_grows _ _ s
  · exact .refl _ s

theorem popSetupDone_grows (n : BitVec 4) (s : State) : Grows [.oep] s (popSetupDone n s) := by
  unfold popSetupDone
  split
  · exact setOep_grows _ _ s
  · exact .refl _ s

theorem maskTxfe_grows (e : Ep) (s : State) : Grows [.core] s (maskTxfe e s) := setCore_grows _ s

theorem enumDone_grows (s : State) : Grows [.core, .busActive] s (enumDone s) :=
  .of_only (fun p hp => by cases p <;> simp_all [Same, enumDone]) (by decide)

theorem isoIncomplete_grows (a b : Bool) (s : State) : Grows [.core, .events] s (isoIncomplete a b s) :=
  (setCore_grows _ s).trans (emit_grows _ _)

theorem wake_grows (s : State) : Grows [.core] s (wake s) := setCore_grows _ s

theorem busReset_grows (s : State) : Grows dispatcherParts s (busReset s) where
  only p hp := by cases p <;> simp_all [Same, dispatcherParts, busReset]
  sticky := ⟨id, fun _ => id, id, List.prefix_append _ _, List.prefix_rfl, rfl⟩

theorem receiveData_grows (epnum : BitVec 4) (bcnt : BitVec 11) (s : State) :
    (receiveData epnum bcnt s).Within (Grows [.mem, .rxq, .fault, .dout] s) := by
  have hdump : ∀ n u, (dumpPacket n u).Within (Grows [.mem, .rxq, .fault, .dout] u) :=
    fun n u => (dumpPacket_grows n u).mono fun t ht => ht.mono (by decide)
  unfold receiveData keepData
  split
  · exact hdump _ s
  split
  · exact hdump _ s
  · refine Ctl.Within.bind ((readPacket_grows _ _ s).mono fun t ht => ht.mono (by decide)) fun t ht => ?_
    refine (hdump _ _).mono fun u hu => ((ht.trans (setDout_grows _ _ t)).trans hu).mono (by decide)

theorem receiveService_grows (s : State) : (receiveService s).Within (Grows dispatcherParts s) := by
  unfold receiveService
  split
  · exact .refl _ s
  next w q _ =>
  have hq := setRxq_grows q s
  unfold receiveEntry receiveXferDone receiveSetupDone receiveOther
  split
  · exact (receiveData_grows _ _ _).mono fun t ht => (hq.trans ht).mono (by decide)
  split
  · exact (dumpPacket_grows _ _).mono fun t ht => ((hq.trans (popXferDone_grows _ _)).trans ht).mono (by decide)
  split
  · exact (dumpPacket_grows _ _).mono fun t ht => ((hq.trans (popSetupDone_grows _ _)).trans ht).mono (by decide)
  · exact (dumpPacket_grows _ _).mono fun t ht => (hq.trans ht).mono (by decide)

theorem inXfrcEvent_grows (e : Ep) (s : State) : Grows [.iep, .din] s (inXfrcEvent e s) := by
  unfold inXfrcEvent
  split
  · exact (setIep_grows _ _ s).trans (setDin_grows _ _ _)
  · exact .refl _ s

theorem advanceDin_grows (e : Ep) (n : Nat) (s : State) : Grows [.din, .core] s (advanceDin e n s) := by
  unfold advanceDin
  simp only
  split
  · exact (setDin_grows _ _ s).trans (maskTxfe_grows _ _)
  · exact (setDin_grows _ _ s).mono (by decide)

theorem inTxfeEvent_grows (e : Ep) (s : State) : (inTxfeEvent e s).Within (Grows [.txq, .din, .core] s) := by
  unfold inTxfeEvent
  split
  · split
    · obtain ⟨-, h⟩ | ⟨-, h⟩ := writePacket_cases e ((s.din.get e).buf.toNat + (s.din.get e).off.toNat)
        ((s.din.get e).req.toNat - (s.din.get e).off.toNat) s <;> rw [h]
      · exact (setTxq_grows e _ s).trans (advanceDin_grows e _ _)
      · trivial
    · exact (maskTxfe_grows e s).mono (by decide)
  · exact .refl _ s

theorem inEndpoint_grows (e : Ep) (s : State) : (inEndpoint e s).Within (Grows dispatcherParts s) := by
  unfold inEndpoint
  split
  · exact (inTxfeEvent_grows e _).mono fun t ht => ((inXfrcEvent_grows e s).trans ht).mono (by decide)
  · exact .refl _ s

theorem outEndpoint_grows (old : OutBank) (e : Ep) (s : State) :
    (outEndpoint old e s).Within (Grows dispatcherParts s) := by
  unfold outEndpoint outEvent
  split
  · exact ((setOep_grows e _ s).trans (setDout_grows e _ _)).mono (by decide)
  · exact .refl _ s

/-- An iteration changes the dispatcher's parts alone, and undoes nothing (42_bus_event_handler R103). -/
theorem dispatch_grows (s : State) : (dispatch s).Within (Grows dispatcherParts s) := by
  have hthen : ∀ {u t : State}, Grows dispatcherParts s u → Grows dispatcherParts u t → Grows dispatcherParts s t :=
    fun h k => (h.trans k).mono (by decide)
  refine dispatch_within (P := Grows dispatcherParts s) ?reset ?enum ?rx ?inn ?out ?iso ?wake
    (.refl _ s)
  case reset => exact fun u hu => hthen hu (busReset_grows u)
  case enum => exact fun u hu => hthen hu ((enumDone_grows u).mono (by decide))
  case rx => exact fun u hu => (receiveService_grows u).mono fun t => hthen hu
  case inn => exact fun e u hu => (inEndpoint_grows e u).mono fun t => hthen hu
  case out => exact fun old e u hu => (outEndpoint_grows old e u).mono fun t => hthen hu
  case iso => exact fun a b u hu => hthen hu ((isoIncomplete_grows a b u).mono (by decide))
  case wake => exact fun u hu => hthen hu ((wake_grows u).mono (by decide))

end Sys2Proof.Machine

/-! SUPPORT. What a command of the port leaves: the block brought up, a transfer armed, or registers written. -/

namespace Sys2Proof.Machine

/-! ## What a command leaves -/

/-- An arm of the current task leaves: the descriptor Armed on a buffer that does not wrap, `n` of its bytes moved at
once, then registers and a transmit FIFO written, then the task waiting (43_transfer_api R120 to R122). -/
def Arms (s t : State) : Prop :=
  s.inited = true ∧ ∃ (dir : Dir) (e : Ep) (buf : Word) (size : BitVec 19) (tmo : Word) (n : Nat) (u : State),
    buf.toNat + size.toNat ≤ memBytes s.cfg ∧ n ≤ size.toNat ∧
    OnlyChanges [.core, .iep, .oep, .txq]
      (setDescriptor s dir e { armedDescriptor buf size with off := BitVec.ofNat 32 n }) u ∧
    t = wait dir e tmo u

/-- A push from bytes that exist goes on, with no more bytes than asked for (40_fifo_marshaling R93). -/
theorem writePacket_fits {e : Ep} {src size : Nat} {s : State} (h : src + size ≤ memBytes s.cfg) :
    ∃ n q, n ≤ size ∧ writePacket e src size s = .ok (n, s.setTxq e q) := by
  have hle := writeCount_le s e size
  obtain ⟨-, hw⟩ | ⟨hout, -⟩ := writePacket_cases e src size s
  · exact ⟨_, _, hle, hw⟩
  · omega

/-- An arm of IN_TRANSFER whose buffer does not wrap goes on. -/
theorem armIn_arms {e : Ep} {size : BitVec 19} {buf : Word} {s : State} (tmo : Word)
    (hv : inVerdict e size.toNat buf s = .pass) : ∃ t, armIn e size buf tmo s = .go t ∧ Arms s t := by
  obtain ⟨hinit, -, -, -, -, hfits, -⟩ := armVerdict_pass hv
  obtain ⟨n, q, hn, hw⟩ := writePacket_fits (e := e) (s := (s.setDin e (armedDescriptor buf size)).setIep e
    (armInBank (s.iep.get e) size (packetCount size.toNat (mpsIn s e)))) hfits
  unfold armIn
  simp only [hw]
  split
  · refine ⟨_, rfl, hinit, .inn, e, buf, size, tmo, n, _, hfits, hn, fun p hp => ?_, rfl⟩
    cases p <;> simp_all [Same, setDescriptor]
  · refine ⟨_, rfl, hinit, .inn, e, buf, size, tmo, 0, _, hfits, Nat.zero_le _, fun p hp => ?_, rfl⟩
    cases p <;> simp_all [Same, setDescriptor, armedDescriptor]

theorem armOut_arms {e : Ep} {size : BitVec 19} {buf : Word} {s : State} (tmo : Word)
    (hv : outVerdict e size.toNat buf s = .pass) : Arms s (armOut e size buf tmo s) := by
  obtain ⟨hinit, -, -, -, -, hfits, -⟩ := armVerdict_pass hv
  refine ⟨hinit, .out, e, buf, size, tmo, 0, _, hfits, Nat.zero_le _, fun p hp => ?_, rfl⟩
  cases p <;> simp_all [Same, setDescriptor, armedDescriptor]

theorem armSetup_arms {e : Ep} {size : BitVec 19} {buf : Word} {s : State} (tmo : Word)
    (hv : setupVerdict e size.toNat buf s = .pass) : Arms s (armSetup e size buf tmo s) := by
  obtain ⟨hinit, -, -, -, -, hfits, -⟩ := armVerdict_pass hv
  refine ⟨hinit, .out, e, buf, size, tmo, 0, _, hfits, Nat.zero_le _, fun p hp => ?_, rfl⟩
  cases p <;> simp_all [Same, setDescriptor, armedDescriptor]

theorem setDescriptor_grows (dir : Dir) (e : Ep) (d : Descriptor) (s : State) :
    Grows [.din, .dout] s (setDescriptor s dir e d) := by
  cases dir with
  | inn => exact (setDin_grows e d s).mono (by decide)
  | out => exact (setDout_grows e d s).mono (by decide)

theorem Arms.grows {s t : State} (h : Arms s t) : Grows [.din, .dout, .core, .iep, .oep, .txq, .tasks] s t := by
  obtain ⟨-, dir, e, buf, size, tmo, n, u, -, -, hu, rfl⟩ := h
  exact ((setDescriptor_grows dir e _ s).trans (.of_only hu (by decide))).trans (onCur_grows _ u)

theorem Arms.waits {s t : State} (h : Arms s t) : ∃ dir e tmo, Waits dir e tmo s t := by
  obtain ⟨-, dir, e, buf, size, tmo, n, u, -, -, hu, rfl⟩ := h
  have hsu := ((setDescriptor_grows dir e _ s).trans (.of_only hu (by decide))).only
  exact ⟨dir, e, tmo, wait_waits dir e tmo (hsu .tasks (by decide)) (hsu .cur (by decide)) (hsu .now (by decide))⟩

/-- What a command other than INIT and the transfers may change. -/
def commandParts : List Part := [.core, .iep, .oep, .busActive, .events, .tasks, .fault, .refused]

/-- A command brings the block up, or arms a transfer, or leaves FIFOs, descriptors and memory alone. -/
theorem PortEffect.classes {s t : State} (h : PortEffect s t) :
    (s.inited = false ∧ t = Machine.advance (bringUp s)) ∨ Arms s t ∨ Grows commandParts s t := by
  have hregs : ∀ {ps u}, Grows ps s u → (∀ p ∈ ps ++ [.tasks], p ∈ commandParts) →
      Grows commandParts s (Machine.advance u) := fun hu hps => (hu.trans (onCur_grows _ _)).mono hps
  cases h with
  | init hs => exact .inl ⟨hs, rfl⟩
  | armIn e size buf tmo t hv hgo =>
    obtain ⟨u, hu, harms⟩ := armIn_arms tmo hv
    cases hu.symm.trans hgo
    exact .inr (.inl harms)
  | armOut e size buf tmo hv => exact .inr (.inl (armOut_arms tmo hv))
  | armSetup e size buf tmo hv => exact .inr (.inl (armSetup_arms tmo hv))
  | refused r => exact .inr (.inr ((refuse_grows r s).mono (by decide)))
  | error v => exact .inr (.inr ((onCur_grows _ s).mono (by decide)))
  | race a => exact .inr (.inr ((raise_grows _ s).mono (by decide)))
  | connect => exact .inr (.inr (hregs (setCore_grows _ s) (by decide)))
  | disconnect =>
    refine .inr (.inr (hregs (ps := [.core, .busActive]) (.of_only (fun p hp => ?_) (by decide)) (by decide)))
    cases p <;> simp_all [Same]
  | configureIn e => exact .inr (.inr (hregs ((setIep_grows e _ s).trans (setCore_grows _ _)) (by decide)))
  | configureOut e => exact .inr (.inr (hregs ((setOep_grows e _ s).trans (setCore_grows _ _)) (by decide)))
  | setRx => exact .inr (.inr (hregs (setCore_grows _ s) (by decide)))
  | setTx => exact .inr (.inr (hregs (setCore_grows _ s) (by decide)))
  | address => exact .inr (.inr (hregs ((setCore_grows _ s).trans (emit_grows _ _)) (by decide)))
  | stallIn e => exact .inr (.inr (hregs (setIep_grows e _ s) (by decide)))
  | stallOut e => exact .inr (.inr (hregs (setOep_grows e _ s) (by decide)))
  | disableIn e => exact .inr (.inr (hregs (setIep_grows e _ s) (by decide)))
  | disableOut e => exact .inr (.inr (hregs (setOep_grows e _ s) (by decide)))

/-- The task of a command stays as it is, completes the command, or waits (10_state R46). -/
theorem PortEffect.tasks {s t : State} (h : PortEffect s t) :
    t.tasks = s.tasks ∨ (∃ r, Completed s.cur r s t) ∨ ∃ dir e tmo, Waits dir e tmo s t := by
  cases h with
  | refused | race => exact .inl rfl
  | error v => exact .inr (.inl ⟨_, returnRes_completed v rfl rfl⟩)
  | armIn e size buf tmo t hv hgo =>
    obtain ⟨u, hu, harms⟩ := armIn_arms tmo hv
    cases hu.symm.trans hgo
    exact .inr (.inr harms.waits)
  | armOut | armSetup => exact .inr (.inr ⟨_, _, _, wait_waits _ _ _ rfl rfl rfl⟩)
  | _ => exact .inr (.inl ⟨none, advance_completed rfl rfl⟩)

end Sys2Proof.Machine

/-! SUPPORT. Proofs of the statement that sound descriptors stay sound and never stop the machine (10_state R41, 20_memory
R53). -/

namespace Sys2Proof.Machine

/-! ## Sound descriptors (10_state R41, 20_memory R53) -/

/-- A descriptor that is neither Armed nor Complete is sound. -/
theorem Descriptor.Ok.of_inactive {space : Nat} {d : Descriptor} (ha : d.status ≠ .armed)
    (hc : ∀ n, d.status ≠ .complete n) : d.Ok space :=
  ⟨fun h => absurd h ha, fun n h => absurd h (hc n)⟩

theorem Descriptor.Ok.completed {space : Nat} {d : Descriptor} (h : d.Ok space) : d.completed.Ok space := by
  unfold Descriptor.completed
  split
  · next ha =>
    obtain ⟨hoff, hreq, -⟩ := h.1 (d.isArmed_iff.1 ha)
    exact ⟨fun h => (by cases h), fun n hn => (by cases hn; exact ⟨rfl, hoff, hreq⟩)⟩
  · exact h

theorem Descriptor.Ok.afterReset {space : Nat} {d : Descriptor} (h : d.Ok space) : d.afterReset.Ok space := by
  unfold Descriptor.afterReset
  split
  · exact .of_inactive (by simp) (by simp)
  · exact h

/-- An Armed descriptor stays sound when its offset moves by no more than is left of its request. -/
theorem Descriptor.Ok.move {space n : Nat} {d : Descriptor} (h : d.Ok space) (ha : d.status = .armed)
    (hn : d.off.toNat + n ≤ d.req.toNat) : Descriptor.Ok space { d with off := d.off + BitVec.ofNat 32 n } := by
  obtain ⟨-, hreq, hbuf⟩ := h.1 ha
  refine ⟨fun _ => ⟨?_, hreq, hbuf⟩, fun m hm => ?_⟩
  · simp only [BitVec.toNat_add, BitVec.toNat_ofNat]; omega
  · rw [ha] at hm; cases hm

/-- What an arm writes is sound, with `n` bytes of its request moved at once. -/
theorem armedDescriptor_ok {space n : Nat} {buf : Word} {size : BitVec 19} (hbuf : buf.toNat + size.toNat ≤ space)
    (hn : n ≤ size.toNat) : Descriptor.Ok space { armedDescriptor buf size with off := BitVec.ofNat 32 n } := by
  have hsize := size.isLt
  refine ⟨fun _ => ?_, fun m hm => by cases hm⟩
  simp only [armedDescriptor, BitVec.toNat_setWidth, BitVec.toNat_ofNat]
  omega

/-- What leaves the descriptors alone keeps them sound. -/
theorem DescsOk.of_grows {ps : List Part} {s t : State} (hs : DescsOk s) (h : Grows ps s t)
    (hps : ∀ p ∈ [Part.din, .dout], p ∉ ps) : DescsOk t := by
  have hdin : t.din = s.din := h.only .din (hps .din (by decide))
  have hdout : t.dout = s.dout := h.only .dout (hps .dout (by decide))
  unfold DescsOk
  rwa [h.sticky.cfg, hdin, hdout]

theorem DescsOk.setDin {s : State} {e : Ep} {d : Descriptor} (hs : DescsOk s) (hd : d.Ok (memBytes s.cfg)) :
    DescsOk (s.setDin e d) := by
  intro k
  refine ⟨?_, (hs k).2⟩
  rw [State.setDin_din, PerEp.get_set]
  split
  · exact hd
  · exact (hs k).1

theorem DescsOk.setDout {s : State} {e : Ep} {d : Descriptor} (hs : DescsOk s) (hd : d.Ok (memBytes s.cfg)) :
    DescsOk (s.setDout e d) := by
  intro k
  refine ⟨(hs k).1, ?_⟩
  rw [State.setDout_dout, PerEp.get_set]
  split
  · exact hd
  · exact (hs k).2

theorem DescsOk.setDescriptor {s : State} {dir : Dir} {e : Ep} {d : Descriptor} (hs : DescsOk s)
    (hd : d.Ok (memBytes s.cfg)) : DescsOk (setDescriptor s dir e d) := by
  cases dir with
  | inn => exact hs.setDin hd
  | out => exact hs.setDout hd

/-! ## Parts of a step that never stop the machine -/

/-- A part of a step answers a state in `P`, and never stops the machine. -/
def Ctl.Ends (P : State → Prop) : Ctl → Prop
  | .go s => P s
  | .ended s => P s
  | .stop _ => False

theorem Ctl.Ends.within {P : State → Prop} {c : Ctl} (h : c.Ends P) : c.Within P := by
  cases c with
  | go s => exact h
  | ended s => exact h
  | stop r => exact h.elim

theorem Ctl.Ends.next {P : State → Prop} {c : Ctl} (h : c.Ends P) : ∃ t, c.outcome = .next t := by
  cases c with
  | go s => exact ⟨s, rfl⟩
  | ended s => exact ⟨s, rfl⟩
  | stop r => exact h.elim

theorem Ctl.Ends.bind {P : State → Prop} {c : Ctl} {f : State → Ctl} (h : c.Ends P)
    (hf : ∀ s, P s → (f s).Ends P) : (c.bind f).Ends P := by
  cases c with
  | go s => exact hf s h
  | ended s => exact h
  | stop r => exact h.elim

theorem Ctl.Ends.runIf {P : State → Prop} {f : State → Ctl} {s : State} (b : Bool) (hs : P s)
    (hf : (f s).Ends P) : (runIf b f s).Ends P := by
  cases b with
  | false => exact hs
  | true => exact hf

theorem Ctl.Ends.forEps {P : State → Prop} {f : Ep → State → Ctl} (hf : ∀ e s, P s → (f e s).Ends P)
    (es : List Ep) {s : State} (hs : P s) : (forEps es f s).Ends P := by
  induction es generalizing s with
  | nil => exact hs
  | cons e es ih => exact (hf e s hs).bind fun t ht => ih ht

/-! ## An iteration keeps sound descriptors and does not stop -/

theorem DescsOk.busReset {s : State} (hs : DescsOk s) : DescsOk (busReset s) := fun e => by
  obtain ⟨hin, hout⟩ := hs e
  exact ⟨(PerEp.get_map _ s.din e).symm ▸ hin.afterReset, (PerEp.get_map _ s.dout e).symm ▸ hout.afterReset⟩

theorem dumpPacket_ends (size : Nat) {s : State} (hs : DescsOk s) : (dumpPacket size s).Ends DescsOk := by
  have h := dumpPacket_grows size s
  obtain ⟨-, hd⟩ | ⟨-, hd⟩ := dumpPacket_cases size s <;> rw [hd] at h ⊢ <;> exact hs.of_grows h (by decide)

/-- What an Armed descriptor with room keeps of an entry fits in what is left of its request. -/
theorem keptBytes_some {d : Descriptor} {bcnt n : Nat} (h : keptBytes d bcnt = some n) :
    d.status = .armed ∧ d.off.toNat + n ≤ d.req.toNat := by
  unfold keptBytes at h
  split at h
  · next hd => cases h; exact ⟨d.isArmed_iff.1 hd.1, by omega⟩
  · cases h

theorem keepData_ends {e : Ep} {bcnt n : Nat} {s : State} (hs : DescsOk s)
    (hk : keptBytes (s.dout.get e) bcnt = some n) : (keepData e bcnt n s).Ends DescsOk := by
  obtain ⟨harmed, hroom⟩ := keptBytes_some hk
  obtain ⟨-, -, hbuf⟩ := (hs e).2.1 harmed
  have hread := readPacket_grows ((s.dout.get e).buf.toNat + (s.dout.get e).off.toNat) n s
  unfold keepData
  obtain ⟨hout, -⟩ | ⟨-, -, h⟩ | ⟨-, -, h⟩ :=
    readPacket_cases ((s.dout.get e).buf.toNat + (s.dout.get e).off.toNat) n s
  · omega
  · rw [h] at hread ⊢
    exact dumpPacket_ends _ ((hs.of_grows hread (by decide)).setDout ((hs e).2.move harmed hroom))
  · rw [h] at hread ⊢
    exact hs.of_grows hread (by decide)

theorem receiveData_ends (epnum : BitVec 4) (bcnt : BitVec 11) {s : State} (hs : DescsOk s) :
    (receiveData epnum bcnt s).Ends DescsOk := by
  unfold receiveData
  split
  · exact dumpPacket_ends _ hs
  split
  · exact dumpPacket_ends _ hs
  · next h => exact keepData_ends hs h

theorem receiveService_ends {s : State} (hs : DescsOk s) : (receiveService s).Ends DescsOk := by
  unfold receiveService
  split
  · exact hs
  next w q _ =>
  have hq : DescsOk (s.setRxq q) := hs.of_grows (setRxq_grows q s) (by decide)
  unfold receiveEntry
  split
  · exact receiveData_ends _ _ hq
  split
  · exact dumpPacket_ends _ (hq.of_grows (popXferDone_grows _ _) (by decide))
  split
  · exact dumpPacket_ends _ (hq.of_grows (popSetupDone_grows _ _) (by decide))
  · exact dumpPacket_ends _ hq

theorem DescsOk.inXfrcEvent {s : State} (e : Ep) (hs : DescsOk s) : DescsOk (inXfrcEvent e s) := by
  unfold Machine.inXfrcEvent
  split
  · exact (hs.of_grows (setIep_grows _ _ s) (by decide)).setDin (hs e).1.completed
  · exact hs

theorem DescsOk.advanceDin {e : Ep} {n : Nat} {s : State} (hs : DescsOk s) (ha : (s.din.get e).status = .armed)
    (hn : (s.din.get e).off.toNat + n ≤ (s.din.get e).req.toNat) : DescsOk (advanceDin e n s) := by
  have hd := hs.setDin (e := e) ((hs e).1.move ha hn)
  unfold Machine.advanceDin
  simp only
  split
  · exact hd.of_grows (maskTxfe_grows e _) (by decide)
  · exact hd

theorem inTxfeEvent_ends (e : Ep) {s : State} (hs : DescsOk s) : (inTxfeEvent e s).Ends DescsOk := by
  unfold inTxfeEvent
  split
  · split
    · next harmed =>
      have ha := (Descriptor.isArmed_iff _).1 harmed
      obtain ⟨hoff, -, hbuf⟩ := (hs e).1.1 ha
      obtain ⟨n, q, hn, h⟩ := writePacket_fits (e := e) (s := s)
        (src := (s.din.get e).buf.toNat + (s.din.get e).off.toNat)
        (size := (s.din.get e).req.toNat - (s.din.get e).off.toNat) (by omega)
      rw [h]
      exact (hs.of_grows (setTxq_grows e q s) (by decide)).advanceDin ha (by simp only [State.setTxq_din]; omega)
    · exact hs.of_grows (maskTxfe_grows e s) (by decide)
  · exact hs

theorem inEndpoint_ends (e : Ep) (s : State) (hs : DescsOk s) : (inEndpoint e s).Ends DescsOk := by
  unfold inEndpoint
  split
  · exact inTxfeEvent_ends e (hs.inXfrcEvent e)
  · exact hs

theorem outEndpoint_ends (old : OutBank) (e : Ep) (s : State) (hs : DescsOk s) :
    (outEndpoint old e s).Ends DescsOk := by
  unfold outEndpoint outEvent
  split
  · exact (hs.of_grows (setOep_grows e _ s) (by decide)).setDout (hs e).2.completed
  · exact hs

/-- The seven services of an iteration, one after another (42_bus_event_handler R104). -/
theorem dispatch_ends {s : State} (hs : DescsOk s) : (dispatch s).Ends DescsOk := by
  unfold dispatch
  split
  · exact hs
  unfold services
  refine Ctl.Ends.bind (Ctl.Ends.runIf _ hs hs.busReset) fun s hs => ?_
  refine Ctl.Ends.bind (Ctl.Ends.runIf _ hs (hs.of_grows (enumDone_grows s) (by decide))) fun s hs => ?_
  refine Ctl.Ends.bind (Ctl.Ends.runIf _ hs (receiveService_ends hs)) fun s hs => ?_
  refine Ctl.Ends.bind (Ctl.Ends.runIf _ hs (Ctl.Ends.forEps inEndpoint_ends _ hs)) fun s hs => ?_
  refine Ctl.Ends.bind (Ctl.Ends.runIf _ hs (Ctl.Ends.forEps (fun e => outEndpoint_ends _ e) _ hs)) fun s hs => ?_
  refine Ctl.Ends.bind (Ctl.Ends.runIf _ hs (hs.of_grows (isoIncomplete_grows _ _ s) (by decide))) fun s hs => ?_
  exact Ctl.Ends.runIf _ hs (hs.of_grows (wake_grows s) (by decide))

/-! ## A command and a poll keep sound descriptors -/

theorem DescsOk.bringUp (s : State) : DescsOk (bringUp s) := fun e => by
  have hempty : Descriptor.empty.Ok (memBytes s.cfg) :=
    .of_inactive (by simp [Descriptor.empty]) (by simp [Descriptor.empty])
  exact ⟨(PerEp.get_all _ e).symm ▸ hempty, (PerEp.get_all _ e).symm ▸ hempty⟩

theorem DescsOk.arms {s t : State} (hs : DescsOk s) (h : Arms s t) : DescsOk t := by
  obtain ⟨-, dir, e, buf, size, tmo, n, u, hfits, hn, hu, rfl⟩ := h
  have hu' := (hs.setDescriptor (armedDescriptor_ok hfits hn)).of_grows (.of_only hu (by decide)) (by decide)
  exact hu'.of_grows (onCur_grows _ u) (by decide)

theorem DescsOk.port {s t : State} (hs : DescsOk s) (h : PortEffect s t) : DescsOk t := by
  obtain ⟨-, rfl⟩ | harms | hgrows := h.classes
  · exact (DescsOk.bringUp s).of_grows (onCur_grows _ _) (by decide)
  · exact hs.arms harms
  · exact hs.of_grows hgrows (by decide)

/-- The recovery of a timeout touches the bank and the transmit FIFO alone (43_transfer_api R124). -/
theorem timeoutRecover_grows (dir : Dir) (e : Ep) (s : State) :
    Grows [.iep, .oep, .txq] s (timeoutRecover dir e s) := by
  cases dir with
  | inn => exact ((setIep_grows e _ s).trans (setTxq_grows e _ _)).mono (by decide)
  | out => exact (setOep_grows e _ s).mono (by decide)

theorem DescsOk.endWait {s : State} (dir : Dir) (e : Ep) (v : Word) (hs : DescsOk s) : DescsOk (endWait dir e v s) :=
  (hs.setDescriptor (.of_inactive (by simp) (by simp))).of_grows (onCur_grows _ _) (by decide)

theorem DescsOk.poll {s : State} (dir : Dir) (e : Ep) (t0 : Nat) (tmo : Word) (hs : DescsOk s) :
    DescsOk (poll dir e t0 tmo s) := by
  obtain ⟨n, -, h⟩ | ⟨-, h⟩ | ⟨-, -, h⟩ | ⟨-, -, h⟩ := poll_cases dir e t0 tmo s <;> rw [h]
  · exact hs.endWait dir e n
  · exact hs.endWait dir e codeReset
  · exact (hs.of_grows (timeoutRecover_grows dir e s) (by decide)).endWait dir e codeTimeout
  · exact hs

/-! ## Progress -/

theorem armStep_next {v : ArmVerdict} {arm : State → Ctl} {s : State} (h : v = .pass → ∃ t, arm s = .go t) :
    ∃ t, (armStep v arm s).outcome = .next t := by
  obtain ⟨r, -, hr⟩ | ⟨c, -, hr⟩ | ⟨f, -, hr⟩ | ⟨hv, hr⟩ := armStep_cases v arm s <;> rw [hr]
  · exact ⟨_, rfl⟩
  · exact ⟨_, rfl⟩
  · exact ⟨_, rfl⟩
  · obtain ⟨t, ht⟩ := h hv
    exact ⟨t, ht ▸ rfl⟩

/-- No command of the port stops the machine: an arm checks its buffer first (43_transfer_api R117). -/
theorem port_next {i : Instr} (hi : i.space = .port) (s : State) : ∃ t, exec i s = .next t := by
  cases i with
  | inTransfer e size buf tmo =>
    exact armStep_next fun hv => (armIn_arms tmo hv).imp fun t ht => ht.1
  | outTransfer | setupTransfer => exact armStep_next fun _ => ⟨_, rfl⟩
  | init | connect | disconnect | setRxFifoSize | setTxFifoSize => exact ⟨_, rfl⟩
  | configureInEp | configureOutEp => exact ⟨_, rfl⟩
  | setDeviceAddress | stallInEp | stallOutEp | disableInEp | disableOutEp => exact ⟨_, rfl⟩
  | readPacket | writePacket | dumpPacket => cases hi
  | svcUsbrst | svcEnumdne | svcRxflvl | svcIepint | svcOepint | svcIisoixfr | svcIpxfr | svcWkupint => cases hi
  | rxGlobalOutNak | rxOutData | rxOutXferDone | rxSetupDone | rxSetupData => cases hi
  | iepXfrc | iepTxfe | oepXfrc | oepStup => cases hi

theorem taskTurn_next (k : Task) (s : State) : ∃ t, taskTurn k s = .next t := by
  unfold taskTurn
  split
  · unfold runCommand
    split
    · next i hi => exact port_next (decodeCommand_port hi) s
    · exact ⟨_, rfl⟩
  · exact ⟨_, rfl⟩
  · exact ⟨_, rfl⟩

/-- From sound descriptors every move has a next state: what a service reads or writes is in an Armed buffer (20_memory
R54). -/
theorem step_next {s : State} (hs : DescsOk s) : ∃ t, step s = .next t := by
  unfold step runMove
  split
  · split
    · exact taskTurn_next _ _
    · exact ⟨_, rfl⟩
  · unfold dispatchTurn
    split
    · exact (dispatch_ends (hs.of_grows (afterTurn_grows s) (by decide))).next
    · exact ⟨_, rfl⟩
  · exact ⟨_, rfl⟩
  · exact ⟨_, rfl⟩
  · exact ⟨_, rfl⟩

theorem DescsOk.step {s t : State} (hs : DescsOk s) (h : step s = .next t) : DescsOk t := by
  refine step_keeps (P := DescsOk) ?sched ?cmd ?poll ?disp ?bus ?tick ?refuse ?observe hs h
  case sched => exact fun s sched turns draws cur hs => hs
  case cmd => exact fun i s t k hi _ _ hs he => hs.port (port_effect hi he)
  case poll => exact fun s k dir e t0 tmo _ _ hs => hs.poll dir e t0 tmo
  case disp => exact fun s _ hs => (dispatch_ends hs).within
  case bus => exact fun m s _ hs => hs.of_grows (busEffect_grows m s) (by decide)
  case tick => exact fun s hs => hs.of_grows (tick_grows s) (by decide)
  case refuse => exact fun r s hs => hs.of_grows (refuse_grows r s) (by decide)
  case observe => exact fun n s hs => hs.of_grows (raise_grows _ s) (by decide)

/-- Settles O53: every part of a step keeps the descriptors sound, and the bytes that a service moves lie in the buffer
of an Armed one, which does not wrap. -/
theorem soundDescriptorsNeverStop : Obligations.SoundDescriptorsNeverStop := by
  unfold Obligations.SoundDescriptorsNeverStop
  intro s hs
  obtain ⟨t, ht⟩ := step_next hs
  exact ⟨t, ht, hs.step ht⟩

end Sys2Proof.Machine

/-! SUPPORT. Proofs of the statements about what no step undoes and about the block before `init` (10_state R19, R43
to R49). -/

namespace Sys2Proof.Machine

/-! ## What a step does to the tasks (10_state R46, R47) -/

/-- A task's own progress over one step: its list stays, `pc` moves by at most one, a Done task does not change, and a
written result stays written. -/
structure Task.Progress (k k' : Task) : Prop where
  prog : k'.prog = k.prog
  pc : k'.pc = k.pc ∨ k'.pc = k.pc + 1
  done : k.phase = .done → k' = k
  res : k.res ≠ none → k'.res ≠ none

theorem Task.Progress.refl (k : Task) : k.Progress k := ⟨rfl, .inl rfl, fun _ => rfl, id⟩

theorem Task.Progress.next {k : Task} (r : Option Word) (hk : k.phase ≠ .done) : k.Progress (k.next r) where
  prog := rfl
  pc := .inr rfl
  done h := absurd h hk
  res h := by cases r <;> simp [Task.next, h]

/-- Every task makes progress from `s` to `t`, and none comes or goes. -/
def TasksProgress (s t : State) : Prop := ∀ j : Nat, Option.Rel Task.Progress s.tasks[j]? t.tasks[j]?

theorem TasksProgress.of_eq {s t : State} (h : t.tasks = s.tasks) : TasksProgress s t := fun j => by
  rw [h]
  cases s.tasks[j]? with
  | none => exact .none
  | some k => exact .some (.refl k)

/-- One task makes progress and the others stay. -/
theorem TasksProgress.of_one {j : Nat} {s t : State} {k k' : Task} (hs : s.tasks[j]? = some k)
    (ht : t.tasks[j]? = some k') (hk : k.Progress k') (ho : OtherTasks j s t) : TasksProgress s t := fun i => by
  by_cases hi : i = j
  · subst hi
    rw [hs, ht]
    exact .some hk
  · rw [ho i hi]
    exact TasksProgress.of_eq (s := s) rfl i

theorem TasksProgress.of_completed {s t : State} {k : Task} {r : Option Word} (hs : s.tasks[s.cur]? = some k)
    (hk : k.phase ≠ .done) (h : Completed s.cur r s t) : TasksProgress s t :=
  .of_one hs (h.1 k hs) (.next r hk) h.2

theorem TasksProgress.of_waits {s t : State} {k : Task} {dir : Dir} {e : Ep} {tmo : Word}
    (hs : s.tasks[s.cur]? = some k) (hk : k.phase ≠ .done) (h : Waits dir e tmo s t) : TasksProgress s t :=
  .of_one hs (h.1 k hs) ⟨rfl, .inl rfl, fun hd => absurd hd hk, id⟩ h.2

theorem TasksProgress.prog_eq {s t : State} (h : TasksProgress s t) : t.tasks.map Task.prog = s.tasks.map Task.prog := by
  refine List.ext_getElem? fun j => ?_
  have hj := h j
  rw [List.getElem?_map, List.getElem?_map]
  generalize s.tasks[j]? = a, t.tasks[j]? = b at hj ⊢
  cases hj with
  | none => rfl
  | some hk => exact congrArg some hk.prog

theorem PortEffect.tasksProgress {s t : State} {k : Task} (h : PortEffect s t) (hs : s.tasks[s.cur]? = some k)
    (hk : k.phase ≠ .done) : TasksProgress s t := by
  obtain ht | ⟨r, hr⟩ | ⟨dir, e, tmo, hw⟩ := h.tasks
  · exact .of_eq ht
  · exact .of_completed hs hk hr
  · exact .of_waits hs hk hw

/-- What the end of a wait may change. -/
def pollParts : List Part := [.iep, .oep, .txq, .din, .dout, .tasks]

theorem endWait_grows (dir : Dir) (e : Ep) (v : Word) (s : State) : Grows [.din, .dout, .tasks] s (endWait dir e v s) :=
  (setDescriptor_grows dir e _ s).trans (onCur_grows _ _)

/-- A poll leaves the state as it is, or writes its result and completes the command (43_transfer_api R123). -/
theorem poll_effect (dir : Dir) (e : Ep) (t0 : Nat) (tmo : Word) (s : State) :
    Grows pollParts s (poll dir e t0 tmo s) ∧
      (poll dir e t0 tmo s = s ∨ ∃ v, Completed s.cur (some v) s (poll dir e t0 tmo s)) := by
  have hend : ∀ {u : State} (v : Word), Grows [.iep, .oep, .txq] s u →
      Grows pollParts s (endWait dir e v u) ∧ Completed s.cur (some v) s (endWait dir e v u) := fun {u} v hu => by
    have hd := hu.trans (setDescriptor_grows dir e { descriptor u dir e with status := .idle } u)
    exact ⟨(hu.trans (endWait_grows dir e v u)).mono (by decide),
      returnRes_completed v (hd.only .tasks (by decide)) (hd.only .cur (by decide))⟩
  have hself := Grows.refl [.iep, .oep, .txq] s
  obtain ⟨n, -, h⟩ | ⟨-, h⟩ | ⟨-, -, h⟩ | ⟨-, -, h⟩ := poll_cases dir e t0 tmo s <;> rw [h]
  · exact ⟨(hend n hself).1, .inr ⟨n, (hend n hself).2⟩⟩
  · exact ⟨(hend codeReset hself).1, .inr ⟨codeReset, (hend codeReset hself).2⟩⟩
  · have ht := hend codeTimeout (timeoutRecover_grows dir e s)
    exact ⟨ht.1, .inr ⟨codeTimeout, ht.2⟩⟩
  · exact ⟨.refl _ s, .inl rfl⟩

/-- A command keeps the clock and undoes nothing. -/
theorem PortEffect.keeps {s t : State} (h : PortEffect s t) : Sticky s t ∧ t.now = s.now := by
  obtain ⟨-, rfl⟩ | harms | hgrows := h.classes
  · have hadv := onCur_grows Task.advance (bringUp s)
    have hup : Sticky s (bringUp s) :=
      ⟨fun _ => rfl, fun _ => id, id, List.prefix_rfl, List.prefix_rfl, rfl⟩
    exact ⟨hup.trans hadv.sticky, hadv.only .now (by decide)⟩
  · exact ⟨harms.grows.sticky, harms.grows.only .now (by decide)⟩
  · exact ⟨hgrows.sticky, hgrows.only .now (by decide)⟩

/-! ## What a step does not undo -/

/-- A part of a step that undoes nothing, keeps the clock, and lets the tasks make progress. -/
structure Onward (s t : State) : Prop where
  sticky : Sticky s t
  now : t.now = s.now
  tasks : TasksProgress s t

theorem Onward.of_grows {ps : List Part} {s t : State} (h : Grows ps s t) (hps : ∀ p ∈ [Part.tasks, .now], p ∉ ps) :
    Onward s t :=
  ⟨h.sticky, h.only .now (hps .now (by decide)), .of_eq (h.only .tasks (hps .tasks (by decide)))⟩

/-- What runs after a change of the schedule alone. -/
theorem Onward.after {ps : List Part} {s u t : State} (h : Grows ps s u) (hps : ∀ p ∈ [Part.tasks, .now], p ∉ ps)
    (k : Onward u t) : Onward s t := by
  have htasks : u.tasks = s.tasks := h.only .tasks (hps .tasks (by decide))
  have hnow : u.now = s.now := h.only .now (hps .now (by decide))
  exact ⟨h.sticky.trans k.sticky, k.now.trans hnow, fun j => htasks ▸ k.tasks j⟩

theorem Onward.poll {s : State} {k : Task} (dir : Dir) (e : Ep) (t0 : Nat) (tmo : Word)
    (hs : s.tasks[s.cur]? = some k) (hk : k.phase ≠ .done) : Onward s (poll dir e t0 tmo s) := by
  obtain ⟨hgrows, htasks⟩ := poll_effect dir e t0 tmo s
  refine ⟨hgrows.sticky, hgrows.only .now (by decide), ?_⟩
  obtain h | ⟨v, hv⟩ := htasks
  · exact .of_eq (by rw [h])
  · exact .of_completed hs hk hv

/-- Every step but a tick goes onward, and a tick changes the clock alone. -/
theorem step_onward {s t : State} (h : step s = .next t) :
    Onward s t ∨ ((nextTurn s).move = .tick ∧ Grows [.draws, .sched, .now] s t) := by
  have hafter := afterTurn_grows s
  have htask : ∀ {j k u}, s.tasks[j]? = some k →
      ((taskState j s).tasks[(taskState j s).cur]? = some k → Onward (taskState j s) u) → Onward s u :=
    fun {j k u} hk hu => .after (taskState_grows j s) (by decide) (hu (by
      rw [(taskState_grows j s).only .tasks (by decide)]; exact hk))
  obtain ⟨j, k, i, -, hk, hp, hi, he⟩ | ⟨j, k, r, -, hk, hp, hr, rfl⟩ | ⟨j, k, dir, e, t0, tmo, -, hk, hp, rfl⟩ |
    ⟨j, k, -, -, -, rfl⟩ | ⟨j, -, -, rfl⟩ | ⟨-, hi, hd⟩ | ⟨-, -, rfl⟩ | ⟨m, -, hb, rfl⟩ | ⟨m, -, -, rfl⟩ | ⟨hm, rfl⟩ |
    ⟨j, -, rfl⟩ := step_cases h
  · refine .inl (htask hk fun hcur => ?_)
    have heffect := port_effect (decodeCommand_port hi) he
    exact ⟨heffect.keeps.1, heffect.keeps.2, heffect.tasksProgress hcur (by simp [hp])⟩
  · exact .inl (htask hk fun _ => .of_grows (rejectWord_grows r _) (by decide))
  · exact .inl (htask hk fun hcur => .poll dir e t0 tmo hcur (by simp [hp]))
  · exact .inl (.of_grows (taskState_grows j s) (by decide))
  · exact .inl (.of_grows hafter (by decide))
  · exact .inl (.after hafter (by decide) (.of_grows ((dispatch_grows _).outcome hd) (by decide)))
  · exact .inl (.of_grows hafter (by decide))
  · exact .inl (.after hafter (by decide) (.of_grows (busEffect_grows m _) (by decide)))
  · exact .inl (.of_grows hafter (by decide))
  · exact .inr ⟨hm, hafter.trans (tick_grows _)⟩
  · exact .inl (.after hafter (by decide) (.of_grows (observe_grows j _) (by decide)))

theorem step_sticky {s t : State} (h : step s = .next t) : Sticky s t := by
  obtain h | ⟨-, h⟩ := step_onward h
  · exact h.sticky
  · exact h.sticky

theorem step_tasksProgress {s t : State} (h : step s = .next t) : TasksProgress s t := by
  obtain h | ⟨-, h⟩ := step_onward h
  · exact h.tasks
  · exact .of_eq (h.only .tasks (by decide))

theorem step_now {s t : State} (h : step s = .next t) (hm : (nextTurn s).move ≠ .tick) : t.now = s.now := by
  obtain h | ⟨htick, -⟩ := step_onward h
  · exact h.now
  · exact absurd htick hm

/-- A state with a fault is not final (10_state R49). -/
theorem not_final_of_fault {s : State} {f : FaultReason} (h : s.fault = some f) : s.final = false := by
  simp [State.final, h]

/-- Settles O57: every part of a step is sticky, and a step runs at most one part that moves a task, its own. -/
theorem stickyAndAppendOnly : Obligations.StickyAndAppendOnly := by
  unfold Obligations.StickyAndAppendOnly
  intro s t h
  obtain ⟨hinit, hfault, hrefused, hevents, htx, hcfg⟩ := step_sticky h
  have htasks := step_tasksProgress h
  refine ⟨hinit, hfault, fun hf => ?final, hrefused, hevents, htx, hcfg, htasks.prog_eq, step_now h,
    fun j k k' hk hk' => ?task⟩
  case final =>
    obtain ⟨f, hf⟩ := Option.ne_none_iff_exists'.1 hf
    exact not_final_of_fault (hfault f hf)
  case task =>
    have hkk := htasks j
    rw [hk, hk'] at hkk
    obtain ⟨-, hpc, hdone, hres⟩ := Option.rel_some_some.1 hkk
    exact ⟨hpc, hdone, hres⟩

/-! ## Before `init` (10_state R19) -/

/-- What a step before `init` may change. -/
def quietParts : List Part := [.tasks, .now, .fault, .refused, .cur, .draws, .sched]

/-- Unless `u` is inited, no task of it waits and it differs from `s` in the quiet parts alone. -/
def QuietSince (s u : State) : Prop :=
  u.inited = false → (∀ k ∈ u.tasks, k.isWaiting = false) ∧ OnlyChanges quietParts s u

theorem QuietSince.of_inited {s u : State} (h : u.inited = true) : QuietSince s u := fun hu => by
  rw [h] at hu; cases hu

/-- A change of quiet parts other than the tasks. -/
theorem QuietSince.of_grows {ps : List Part} {s u v : State} (hu : QuietSince s u) (h : Grows ps u v)
    (hps : ∀ p ∈ ps, p ∈ quietParts.erase .tasks) : QuietSince s v := fun hv => by
  have hinit : v.inited = u.inited := h.only .inited fun hm => absurd (hps _ hm) (by decide)
  have htasks : v.tasks = u.tasks := h.only .tasks fun hm => absurd (hps _ hm) (by decide)
  obtain ⟨hquiet, honly⟩ := hu (hinit ▸ hv)
  exact ⟨htasks ▸ hquiet, honly.trans (h.only.mono fun p hp => List.mem_of_mem_erase (hps p hp))⟩

theorem Task.next_isWaiting (k : Task) (r : Option Word) : (k.next r).isWaiting = false := by
  by_cases h : dropCommands (k.pc + 1) k.prog = [] <;> simp [Task.next, Task.isWaiting, h]

/-- The task of a completed command does not wait. -/
theorem Completed.quiet {j : Nat} {r : Option Word} {s t : State} {k₀ : Task} (h : Completed j r s t)
    (hk₀ : s.tasks[j]? = some k₀) (hs : ∀ k ∈ s.tasks, k.isWaiting = false) : ∀ k ∈ t.tasks, k.isWaiting = false := by
  intro k hk
  obtain ⟨i, hi⟩ := List.mem_iff_getElem?.1 hk
  by_cases hij : i = j
  · subst hij
    obtain rfl : k₀.next r = k := Option.some.inj ((h.1 k₀ hk₀).symm.trans hi)
    exact k₀.next_isWaiting r
  · exact hs k (List.mem_iff_getElem?.2 ⟨i, (h.2 i hij).symm.trans hi⟩)

/-- Before `init` a command brings the block up, returns a code, is refused, or records a race. -/
theorem PortEffect.before_init {s t : State} (h : PortEffect s t) (hs : s.inited = false) :
    t.inited = true ∨ (∃ v, t = returnRes v s) ∨ Grows [.refused, .fault] s t := by
  cases h with
  | init => exact .inl (by simp [bringUp])
  | error v => exact .inr (.inl ⟨v, rfl⟩)
  | refused r => exact .inr (.inr ((refuse_grows r s).mono (by decide)))
  | race a => exact .inr (.inr ((raise_grows _ s).mono (by decide)))
  | armIn e size buf tmo t hv => exact absurd (armVerdict_pass hv).1 (by simp [hs])
  | armOut e size buf tmo hv => exact absurd (armVerdict_pass hv).1 (by simp [hs])
  | armSetup e size buf tmo hv => exact absurd (armVerdict_pass hv).1 (by simp [hs])
  -- Every other command passes the check of `inited`.
  | _ => simp_all

theorem QuietSince.port {s u t : State} {k : Task} (hu : QuietSince s u) (hk : u.tasks[u.cur]? = some k)
    (h : PortEffect u t) : QuietSince s t := fun ht => by
  have hinit : u.inited = false := by
    cases hi : u.inited with
    | false => rfl
    | true => rw [h.keeps.1.inited hi] at ht; cases ht
  obtain hup | ⟨v, rfl⟩ | hgrows := h.before_init hinit
  · rw [hup] at ht; cases ht
  · obtain ⟨hquiet, honly⟩ := hu hinit
    exact ⟨(returnRes_completed v rfl rfl).quiet hk hquiet, honly.trans ((onCur_grows _ u).only.mono (by decide))⟩
  · exact hu.of_grows hgrows (by decide) ht

/-- The bus agent moves only after `init` (45_bus_agent R136). -/
theorem inited_of_busEnabled {m : BusMove} {s : State} (h : busEnabled s m = true) : s.inited = true := by
  cases hi : s.inited with
  | false => simp [busEnabled, busUp, hi] at h
  | true => rfl

/-- Before `init` the only tasks that move are Ready ones, and the dispatcher and the bus agent have no step
(42_bus_event_handler R102, 45_bus_agent R136). -/
theorem step_quietSince {s t : State} (hs : QuietBeforeInit s) (h : step s = .next t) : QuietSince s t := by
  refine step_keeps (P := QuietSince s) ?sched ?cmd ?poll ?disp ?bus ?tick ?refuse ?observe
    (fun hi => ⟨hs hi, .refl _ s⟩) h
  case sched =>
    intro u sched turns draws cur hu hi
    obtain ⟨hquiet, honly⟩ := hu hi
    exact ⟨hquiet, honly.trans fun p hp => by cases p <;> simp_all [Same, quietParts]⟩
  case cmd => exact fun i u v k hi hk _ hu he => hu.port hk (port_effect hi he)
  case poll =>
    intro u k dir e t0 tmo hk hp hu
    cases hi : u.inited with
    | false =>
      have hquiet := (hu hi).1 k (List.mem_of_getElem? hk)
      simp [Task.isWaiting, hp] at hquiet
    | true => exact .of_inited ((poll_effect dir e t0 tmo u).1.sticky.inited hi)
  case disp => exact fun u hi _ => (dispatch_grows u).mono fun v hv => .of_inited (hv.sticky.inited hi)
  case bus =>
    intro m u hb _
    exact .of_inited ((busEffect_grows m u).sticky.inited (inited_of_busEnabled hb))
  case tick => exact fun u hu => hu.of_grows (tick_grows u) (by decide)
  case refuse => exact fun r u hu => hu.of_grows (refuse_grows r u) (by decide)
  case observe => exact fun n u hu => hu.of_grows (raise_grows _ u) (by decide)

/-- Settles O58: a state that a step leaves not inited was not inited before, and so only quiet parts changed. -/
theorem onlyInitBringsUp : Obligations.OnlyInitBringsUp := by
  unfold Obligations.OnlyInitBringsUp
  intro s t hs h
  have hquiet := step_quietSince hs h
  exact ⟨fun ht => (hquiet ht).1, fun _ ht => (hquiet ht).2⟩

end Sys2Proof.Machine

/-! SUPPORT. Proofs of the statements about commands before `init`, the masked interrupt status (10_state R23, R24), a
task's turn and the read of a result (10_state R46, R47). -/

namespace Sys2Proof.Machine

/-! ## Commands before `init` (60_exceptions R150) -/

theorem directOp_of_not_inited {f : State → State} {s : State} (hs : s.inited = false) :
    directOp f s = refuse .notInited s := by
  simp [directOp, hs]

/-- The first check of an arm step is `inited` (43_transfer_api R117 (1)). -/
theorem armStep_of_not_inited {s : State} (hs : s.inited = false) (configured control armed : Bool)
    (limit : Option RefuseReason) (space buf size : Nat) (race : Option Nat) (arm : State → Ctl) :
    (armStep (armVerdict s.inited configured control armed limit space buf size race) arm s).outcome =
      .next (refuse .notInited s) := by
  simp [armVerdict, hs, armStep]

/-- Settles O15: each command but INIT begins with the check of `inited`. -/
theorem commandsRefusedBeforeInit : Obligations.CommandsRefusedBeforeInit := by
  unfold Obligations.CommandsRefusedBeforeInit
  intro i s hi hne hs
  refine refuses_of_exec ?_
  cases i with
  | init => exact absurd rfl hne
  | connect => simp [exec, execConnect, connectBus, hs]
  | disconnect => simp [exec, execDisconnect, disconnectBus, hs]
  | setRxFifoSize words => simp [exec, execSetRxFifoSize, setRxFifoSize, hs]
  | setTxFifoSize e words => simp [exec, execSetTxFifoSize, setTxFifoSize, hs]
  | configureInEp e ty mps => rw [exec_configureInEp, configureBank_of_not_inited _ hs]
  | configureOutEp e ty mps => rw [exec_configureOutEp, configureBank_of_not_inited _ hs]
  | inTransfer | outTransfer | setupTransfer => exact armStep_of_not_inited hs ..
  | setDeviceAddress | stallInEp | stallOutEp | disableInEp | disableOutEp =>
    exact congrArg _ (directOp_of_not_inited hs)
  | readPacket | writePacket | dumpPacket => cases hi
  | svcUsbrst | svcEnumdne | svcRxflvl | svcIepint | svcOepint | svcIisoixfr | svcIpxfr | svcWkupint => cases hi
  | rxGlobalOutNak | rxOutData | rxOutXferDone | rxSetupDone | rxSetupData => cases hi
  | iepXfrc | iepTxfe | oepXfrc | oepStup => cases hi

/-! ## The masked interrupt status (10_state R23, R24) -/

theorem iepint_iff (s : State) : iepint s = true ↔ ∃ e, s.core.iepm.get e = true ∧
    (((s.iep.get e).xfrc = true ∧ s.core.diepmskXfrcm = true) ∨ (s.txq.get e = [] ∧ s.core.txfem.get e = true)) := by
  simp [iepint, mem_allEps, inPending, inXfrcFlag, inTxfeFlag, txfe]

theorem oepint_iff (s : State) : oepint s = true ↔ ∃ e, s.core.oepm.get e = true ∧
    (((s.oep.get e).xfrc = true ∧ s.core.doepmskXfrcm = true) ∨
      ((s.oep.get e).stup = true ∧ s.core.doepmskStupm = true)) := by
  simp [oepint, mem_allEps, outPending, outXfrcFlag, outStupFlag]

theorem rxflvl_iff (s : State) : rxflvl s = true ↔ s.rxq ≠ [] := by
  simp [rxflvl]

/-- The flag at position `k` of a register word is bit `k`. -/
theorem flagAt_getLsbD_iff (b : Bool) {k : Nat} (hk : k < 32) (j : Nat) :
    (flagAt b k).getLsbD j = true ↔ j = k ∧ b = true := by
  simp [flagAt_getLsbD, hk, and_comm]

/-- The bits of GINTSTS (30_encoding R83). -/
theorem gintsts_getLsbD_iff (s : State) (k : Nat) : (gintsts s).getLsbD k = true ↔
    (k = 4 ∧ rxflvl s = true) ∨ (k = 12 ∧ s.core.usbrst = true) ∨ (k = 13 ∧ s.core.enumdne = true) ∨
      (k = 18 ∧ iepint s = true) ∨ (k = 19 ∧ oepint s = true) ∨ (k = 20 ∧ s.core.iisoixfr = true) ∨
      (k = 21 ∧ s.core.ipxfr = true) ∨ (k = 31 ∧ s.core.wkupint = true) := by
  simp only [gintsts, BitVec.getLsbD_or, Bool.or_eq_true, or_assoc]
  rw [flagAt_getLsbD_iff _ (by decide), flagAt_getLsbD_iff _ (by decide), flagAt_getLsbD_iff _ (by decide),
    flagAt_getLsbD_iff _ (by decide), flagAt_getLsbD_iff _ (by decide), flagAt_getLsbD_iff _ (by decide),
    flagAt_getLsbD_iff _ (by decide), flagAt_getLsbD_iff _ (by decide)]
  rfl

theorem masked_getLsbD_iff (s : State) (k : Nat) : (masked s).getLsbD k = true ↔
    s.core.gint = true ∧ s.core.gintmsk.getLsbD k = true ∧ (gintsts s).getLsbD k = true := by
  unfold masked
  cases s.core.gint with
  | false => simp
  | true => simp [and_comm]

/-- Settles O8: the mask, then the eight flags at their positions, then what each derived flag stands for. -/
theorem maskedStatusBits : Obligations.MaskedStatusBits := by
  unfold Obligations.MaskedStatusBits
  intro s k
  rw [masked_getLsbD_iff, gintsts_getLsbD_iff, rxflvl_iff, iepint_iff, oepint_iff]

/-! ## Turns (10_state R46, R47) -/

/-- What a turn hands on, field by field. -/
theorem afterTurn_eq (s : State) : afterTurn s = { s with
    draws := (nextTurn s).draws, sched := s.sched.tail,
    turns := if s.sched = [] then s.turns + 1 else s.turns } := by
  unfold afterTurn nextTurn
  cases s.sched with
  | nil => rfl
  | cons turn rest => rfl

/-- A turn of a task that exists runs its turn in the state that names it. -/
theorem step_of_task {s : State} {j : Nat} {k : Task} (hm : (nextTurn s).move = .task j)
    (hk : s.tasks[j]? = some k) : step s = taskTurn k (taskState j s) := by
  have htasks : (afterTurn s).tasks = s.tasks := afterTurn_only s .tasks (by decide)
  simp [step, runMove, hm, htasks, hk, taskState]

/-- Settles O1: a Ready task's turn is its command, in the state that the turn hands on. -/
theorem stepRunsDecodedCommand : Obligations.StepRunsDecodedCommand := by
  unfold Obligations.StepRunsDecodedCommand
  intro s j k i hm hk hp hi
  have hcmd : decodeCommand (commandWords k) = .ok i := hi
  rw [step_of_task hm hk]
  simp only [taskTurn, hp, runCommand, hcmd, taskState, afterTurn_eq]

theorem step_of_observe {s : State} {j : Nat} (hm : (nextTurn s).move = .observe j) :
    step s = .next (observe j (afterTurn s)) := by
  simp [step, runMove, hm]

/-- A read of a result that no command has written is a fault (10_state R47). -/
theorem observe_of_unwritten {s : State} {j : Nat} {k : Task} (hk : s.tasks[j]? = some k) (hr : k.res = none) :
    observe j s = raise (.unwrittenResult j) s := by
  simp [observe, hk, hr]

theorem observe_of_written {s : State} {j : Nat} (h : ∀ k, s.tasks[j]? = some k → k.res ≠ none) : observe j s = s := by
  unfold observe
  split
  · next k hk => simp [h k hk]
  · rfl

/-- Settles O42: the read raises its fault in the state that the turn hands on, or leaves it as it is. -/
theorem observeNeedsAWrittenResult : Obligations.ObserveNeedsAWrittenResult := by
  unfold Obligations.ObserveNeedsAWrittenResult
  intro s j hm
  have htasks : (afterTurn s).tasks = s.tasks := afterTurn_only s .tasks (by decide)
  have hfault : (afterTurn s).fault = s.fault := afterTurn_only s .fault (by decide)
  rw [step_of_observe hm]
  constructor
  · intro k hk hr
    rw [observe_of_unwritten (htasks.symm ▸ hk) hr]
    refine ⟨_, rfl, by rw [raise_fault, hfault], ?_⟩
    exact ((afterTurn_grows s).trans (raise_grows _ _)).only.mono (by decide)
  · intro h
    rw [observe_of_written (htasks.symm ▸ h)]
    exact ⟨_, rfl, afterTurn_only s⟩

end Sys2Proof.Machine

/-! SUPPORT. The FIFOs over one step (20_memory R55, R61, 10_state R37, R38): what each part of a step pushes and pops, and
the statements that the allocation, the depths and the framing of the receive FIFO are kept. -/

namespace Sys2Proof.Machine

/-! ## What the parts of a step push and pop -/

/-- A push that goes on counts no more bytes than asked for, and takes no more words than are free (40_fifo_marshaling
R93). -/
theorem writePacket_pushes (e : Ep) (src size : Nat) (s : State) :
    (∃ n q, n ≤ size ∧ q.length ≤ (s.txq.get e).length + ((s.core.txfd.get e).toNat - (s.txq.get e).length) ∧
      writePacket e src size s = .ok (n, s.setTxq e q)) ∨
    writePacket e src size s = .error .addressSpace := by
  obtain ⟨-, h⟩ | ⟨-, h⟩ := writePacket_cases e src size s
  · refine .inl ⟨_, _, writeCount_le s e size, ?_, h⟩
    have hfree := wordsFor_writeCount s e size
    simp only [List.length_append, packBytes_length, Memory.readBytes_length]
    omega
  · exact .inr h

/-- "FIFO empty" of an IN endpoint: no effect, its interrupt masked, a push for an Armed descriptor, or the stop. -/
theorem inTxfeEvent_cases (e : Ep) (s : State) :
    inTxfeEvent e s = .go s ∨ inTxfeEvent e s = .go (maskTxfe e s) ∨
    (∃ n q, n ≤ (s.din.get e).req.toNat - (s.din.get e).off.toNat ∧
      q.length ≤ (s.txq.get e).length + ((s.core.txfd.get e).toNat - (s.txq.get e).length) ∧
      inTxfeEvent e s = .go (advanceDin e n (s.setTxq e q))) ∨
    inTxfeEvent e s = .stop .addressSpace := by
  unfold inTxfeEvent
  split
  · split
    · obtain ⟨n, q, hn, hq, h⟩ | h := writePacket_pushes e ((s.din.get e).buf.toNat + (s.din.get e).off.toNat)
        ((s.din.get e).req.toNat - (s.din.get e).off.toNat) s <;> rw [h]
      · exact .inr (.inr (.inl ⟨n, q, hn, hq, rfl⟩))
      · exact .inr (.inr (.inr rfl))
    · exact .inr (.inl rfl)
  · exact .inl rfl

/-- The FIFO depths and starts, and the parameters, are the same. -/
structure SameAlloc (s t : State) : Prop where
  cfg : t.cfg = s.cfg
  rxfd : t.core.rxfd = s.core.rxfd
  txsa : t.core.txsa = s.core.txsa
  txfd : t.core.txfd = s.core.txfd

theorem SameAlloc.of_grows {ps : List Part} {s t : State} (h : Grows ps s t) (hps : Part.core ∉ ps) : SameAlloc s t := by
  have hcore : t.core = s.core := h.only .core hps
  exact ⟨h.sticky.cfg, by rw [hcore], by rw [hcore], by rw [hcore]⟩

theorem SameAlloc.trans {s t u : State} (h : SameAlloc s t) (k : SameAlloc t u) : SameAlloc s u :=
  ⟨k.cfg.trans h.cfg, k.rxfd.trans h.rxfd, k.txsa.trans h.txsa, k.txfd.trans h.txfd⟩

theorem advanceDin_sameAlloc (e : Ep) (n : Nat) (s : State) : SameAlloc s (advanceDin e n s) := by
  unfold advanceDin
  simp only
  split
  · exact ⟨rfl, rfl, rfl, rfl⟩
  · exact ⟨rfl, rfl, rfl, rfl⟩

/-- What an arm of IN_TRANSFER that goes on leaves: the IN descriptor Armed, the endpoint's own transmit FIFO seeded as far
as it has room, and the allocation, the OUT descriptors and the memory as they were (43_transfer_api R120). -/
theorem armIn_go {e : Ep} {size : BitVec 19} {buf tmo : Word} {s t : State} (h : armIn e size buf tmo s = .go t) :
    SameAlloc s t ∧ t.rxq = s.rxq ∧ t.dout = s.dout ∧ t.mem = s.mem ∧
    (∃ n, t.din = s.din.set e { armedDescriptor buf size with off := n }) ∧
    ∃ q, t.txq = s.txq.set e q ∧
      q.length ≤ (s.txq.get e).length + ((s.core.txfd.get e).toNat - (s.txq.get e).length) := by
  unfold armIn at h
  simp only at h
  split at h
  · obtain ⟨n, q, -, hq, hw⟩ | hw := writePacket_pushes e buf.toNat size.toNat
      ((s.setDin e (armedDescriptor buf size)).setIep e
        (armInBank (s.iep.get e) size (packetCount size.toNat (mpsIn s e)))) <;> rw [hw] at h <;> cases h
    exact ⟨⟨by simp, by simp, by simp, by simp⟩, by simp, by simp, by simp, ⟨BitVec.ofNat 32 n, by simp⟩,
      q, by simp, hq⟩
  · cases h
    exact ⟨⟨by simp, by simp, by simp, by simp⟩, by simp, by simp, by simp, ⟨0, by simp [armedDescriptor]⟩,
      s.txq.get e, by simp, Nat.le_add_right _ _⟩

/-! ## The receive service (42_bus_event_handler R108, R109) -/

/-- The receive FIFO loses words at its head alone, and only what the receive service may write differs. -/
structure DrainsRx (s t : State) : Prop where
  grows : Grows [.mem, .rxq, .fault, .dout, .oep] s t
  suffix : t.rxq <:+ s.rxq

theorem DrainsRx.of_grows {ps : List Part} {s t : State} (h : Grows ps s t) (hps : ∀ p ∈ ps, p ∈ [Part.dout, .oep]) :
    DrainsRx s t := by
  have hrxq : t.rxq = s.rxq := h.only .rxq fun hm => absurd (hps _ hm) (by decide)
  exact ⟨h.mono fun p hp => (by decide : [Part.dout, .oep] ⊆ [.mem, .rxq, .fault, .dout, .oep]) (hps p hp),
    hrxq ▸ List.suffix_rfl⟩

theorem DrainsRx.trans {s t u : State} (h : DrainsRx s t) (k : DrainsRx t u) : DrainsRx s u :=
  ⟨(h.grows.trans k.grows).mono (by decide), k.suffix.trans h.suffix⟩

theorem readPacket_drainsRx (dst size : Nat) (s : State) : (readPacket dst size s).Within (DrainsRx s) := by
  have hgrows := readPacket_grows dst size s
  obtain ⟨-, h⟩ | ⟨-, -, h⟩ | ⟨-, -, h⟩ := readPacket_cases dst size s <;> rw [h] at hgrows ⊢
  · trivial
  · exact ⟨Grows.mono hgrows (by decide), List.drop_suffix _ _⟩
  · exact ⟨Grows.mono hgrows (by decide), List.nil_suffix⟩

theorem dumpPacket_drainsRx (size : Nat) (s : State) : (dumpPacket size s).Within (DrainsRx s) := by
  have hgrows := dumpPacket_grows size s
  obtain ⟨-, h⟩ | ⟨-, h⟩ := dumpPacket_cases size s <;> rw [h] at hgrows ⊢
  · exact ⟨Grows.mono hgrows (by decide), List.drop_suffix _ _⟩
  · exact ⟨Grows.mono hgrows (by decide), List.nil_suffix⟩

theorem receiveData_drainsRx (epnum : BitVec 4) (bcnt : BitVec 11) (s : State) :
    (receiveData epnum bcnt s).Within (DrainsRx s) := by
  unfold receiveData keepData
  split
  · exact dumpPacket_drainsRx _ s
  split
  · exact dumpPacket_drainsRx _ s
  · refine (readPacket_drainsRx _ _ s).bind fun t ht => (dumpPacket_drainsRx _ _).mono fun u hu => ?_
    exact (ht.trans (.of_grows (setDout_grows _ _ t) (by decide))).trans hu

theorem receiveService_drainsRx (s : State) : (receiveService s).Within (DrainsRx s) := by
  unfold receiveService
  split
  · exact .of_grows (.refl [] s) (by decide)
  next w q hq =>
  have hpop : DrainsRx s (s.setRxq q) := ⟨(setRxq_grows q s).mono (by decide), by rw [hq]; exact List.suffix_cons w q⟩
  have hdump : ∀ {u} n, DrainsRx (s.setRxq q) u → (dumpPacket n u).Within (DrainsRx s) := fun {u} n hu =>
    (dumpPacket_drainsRx n u).mono fun t ht => (hpop.trans hu).trans ht
  unfold receiveEntry receiveXferDone receiveSetupDone receiveOther
  split
  · exact (receiveData_drainsRx _ _ _).mono fun t ht => hpop.trans ht
  split
  · exact hdump _ (.of_grows (popXferDone_grows _ _) (by decide))
  split
  · exact hdump _ (.of_grows (popSetupDone_grows _ _) (by decide))
  · exact hdump _ (.of_grows (.refl [] _) (by decide))

/-- Exactly the first `k` words of the receive FIFO are consumed, and no fault is recorded. -/
def Consumes (k : Nat) (s t : State) : Prop := t.rxq = s.rxq.drop k ∧ t.fault = s.fault

theorem dumpPacket_consumes {size : Nat} {s : State} (h : wordsFor size ≤ s.rxq.length) :
    (dumpPacket size s).Within (Consumes (wordsFor size) s) := by
  obtain ⟨-, hd⟩ | ⟨hlt, -⟩ := dumpPacket_cases size s
  · rw [hd]
    exact ⟨rfl, rfl⟩
  · omega

/-- A kept entry is consumed to its last word, however many of its bytes are kept (90_conflicts C6). -/
theorem keepData_consumes {e : Ep} {bcnt n : Nat} {s : State} (hn : n ≤ bcnt) (h : wordsFor bcnt ≤ s.rxq.length) :
    (keepData e bcnt n s).Within (Consumes (wordsFor bcnt) s) := by
  by_cases hsp : (s.dout.get e).buf.toNat + (s.dout.get e).off.toNat + n ≤ memBytes s.cfg
  · rw [keepData_eq e bcnt n s hn h hsp]
    exact ⟨rfl, rfl⟩
  · unfold keepData
    obtain ⟨-, hr⟩ | ⟨hle, -⟩ | ⟨hle, -⟩ :=
      readPacket_cases ((s.dout.get e).buf.toNat + (s.dout.get e).off.toNat) n s
    · rw [hr]
      trivial
    · exact absurd hle hsp
    · exact absurd hle hsp

theorem keptBytes_le {d : Descriptor} {bcnt n : Nat} (h : keptBytes d bcnt = some n) : n ≤ bcnt := by
  unfold keptBytes at h
  split at h <;> cases h
  exact Nat.min_le_left _ _

theorem receiveData_consumes {epnum : BitVec 4} {bcnt : BitVec 11} {s : State}
    (h : wordsFor bcnt.toNat ≤ s.rxq.length) :
    (receiveData epnum bcnt s).Within (Consumes (wordsFor bcnt.toNat) s) := by
  unfold receiveData
  split
  · exact dumpPacket_consumes h
  split
  · exact dumpPacket_consumes h
  · next hk => exact keepData_consumes (keptBytes_le hk) h

/-- Whatever its kind, an entry that is whole is consumed whole (20_memory R61). -/
theorem receiveEntry_consumes {w : Word} {s : State} (h : wordsFor (rxBcnt w).toNat ≤ s.rxq.length) :
    (receiveEntry w s).Within (Consumes (wordsFor (rxBcnt w).toNat) s) := by
  have hdump : ∀ {u}, Grows [.oep] s u →
      (dumpPacket (rxBcnt w).toNat u).Within (Consumes (wordsFor (rxBcnt w).toNat) s) := fun {u} hu => by
    have hrxq : u.rxq = s.rxq := hu.only .rxq (by decide)
    have hfault : u.fault = s.fault := hu.only .fault (by decide)
    refine (dumpPacket_consumes (hrxq.symm ▸ h)).mono fun t ht => ?_
    exact ⟨hrxq ▸ ht.1, hfault ▸ ht.2⟩
  unfold receiveEntry
  split
  · exact receiveData_consumes h
  split
  · exact hdump (popXferDone_grows _ _)
  split
  · exact hdump (popSetupDone_grows _ _)
  · exact hdump (.refl _ s)

/-! ## The moves of the bus agent (45_bus_agent R142 to R145) -/

/-- What a bus move pushes onto the receive FIFO: whole entries, with room for them. -/
theorem busEffect_rxq {m : BusMove} {s : State} (h : busEnabled s m = true) :
    ∃ q, (busEffect s m).rxq = s.rxq ++ q ∧ Framed q ∧ (q = [] ∨ s.rxq.length + q.length ≤ s.core.rxfd.toNat) := by
  have hnone : (busEffect s m).rxq = s.rxq → ∃ q, (busEffect s m).rxq = s.rxq ++ q ∧ Framed q ∧
      (q = [] ∨ s.rxq.length + q.length ≤ s.core.rxfd.toNat) := fun h => ⟨[], by simpa using h, .nil, .inl rfl⟩
  unfold busEnabled at h
  cases m with
  | reset | enumdone | wake | take e => exact hnone rfl
  | iso dir => cases dir <;> exact hnone rfl
  | out e data dpid frm =>
    simp only [Bool.and_eq_true, outEnabled, decide_eq_true_eq] at h
    obtain ⟨-, ⟨-, hlen⟩, hroom⟩ := h
    have hmps := mpsOut_le s e
    have hbcnt : data.length % 2048 = data.length := Nat.mod_eq_of_lt (by omega)
    refine ⟨_, List.append_assoc _ _ _, ?framed, .inr ?fits⟩
    case framed =>
      refine (Framed.one _ (by simp [rxBcnt_rxStatusWord, hbcnt])).append ?_
      split
      · exact Framed.one _ (by simp [rxBcnt_rxStatusWord])
      · exact .nil
    case fits =>
      simp only [List.length_append, List.length_cons, packBytes_length, apply_ite List.length, List.length_nil,
        Nat.zero_add]
      omega
  | setup e data frm =>
    simp only [Bool.and_eq_true, setupEnabled, decide_eq_true_eq] at h
    obtain ⟨-, ⟨-, hlen⟩, hroom⟩ := h
    have hwords : wordsFor 8 = 2 := rfl
    refine ⟨rxStatusWord (BitVec.ofNat 4 e.val) 8 0 kindSetupData frm :: packBytes (s.draws.pad.get e) data, ?pushed,
      Framed.one _ (by simp [rxBcnt_rxStatusWord, hlen]), .inr (by simp [hlen, hwords]; omega)⟩
    case pushed =>
      unfold busEffect busSetup
      simp only
      split <;> rfl
  | setupdone e =>
    simp only [Bool.and_eq_true, setupdoneEnabled, decide_eq_true_eq] at h
    exact ⟨_, rfl, Framed.one _ (by simp [rxBcnt_rxStatusWord]), .inr h.2.2⟩

/-- A bus move takes words from a transmit FIFO and never pushes. -/
theorem busEffect_txq_length (m : BusMove) (s : State) (k : Ep) :
    ((busEffect s m).txq.get k).length ≤ (s.txq.get k).length := by
  cases m with
  | reset | enumdone | wake | out | setupdone => exact Nat.le_refl _
  | iso dir => cases dir <;> exact Nat.le_refl _
  | setup e data frm =>
    unfold busEffect busSetup
    simp only
    split <;> exact Nat.le_refl _
  | take e =>
    simp only [busEffect, busTake, State.setIep_txq, State.setTxq_txq, PerEp.get_set]
    split
    · next hk => rw [hk, List.length_drop]; omega
    · exact Nat.le_refl _

theorem busEffect_sameAlloc (m : BusMove) (s : State) : SameAlloc s (busEffect s m) := by
  cases m with
  | reset | enumdone | wake | out | setupdone | take => exact ⟨rfl, rfl, rfl, rfl⟩
  | iso dir => cases dir <;> exact ⟨rfl, rfl, rfl, rfl⟩
  | setup e data frm =>
    unfold busEffect busSetup
    simp only
    split <;> exact ⟨rfl, rfl, rfl, rfl⟩

/-! ## The allocation (20_memory R55) -/

theorem AllocFits.of_sameAlloc {s t : State} (hs : AllocFits s) (h : SameAlloc s t) : AllocFits t := by
  unfold AllocFits
  rwa [h.cfg, h.rxfd, h.txsa, h.txfd]

theorem AllocFits.of_grows {ps : List Part} {s t : State} (hs : AllocFits s) (h : Grows ps s t)
    (hps : Part.core ∉ ps) : AllocFits t := hs.of_sameAlloc (.of_grows h hps)

/-- What the check of the FIFO-size commands accepts meets R55's condition (41_endpoint_config R101). -/
theorem allocMeets_of_allocOk {ram rxfd : Nat} {txsa txfd : PerEp Nat} (h : allocOk ram rxfd txsa txfd = true) :
    AllocMeets ram rxfd txsa.get txfd.get := by
  simp only [allocOk, Bool.and_eq_true, List.all_eq_true, Bool.or_eq_true, decide_eq_true_eq, rangesDisjoint] at h
  obtain ⟨⟨hbounds, hapart⟩, hrx⟩ := h
  refine ⟨fun e he => ?_, fun e k hne he hk => ?_, hrx⟩
  · have := hbounds e (mem_allEps e)
    omega
  · obtain ((h | h) | h) | h := hapart e (mem_allEps e) k (mem_allEps k)
    · exact absurd h hne
    · omega
    · omega
    · exact h

theorem depthsOf_get (t : PerEp (BitVec 16)) (e : Ep) : (depthsOf t).get e = (t.get e).toNat :=
  PerEp.get_map _ t e

/-- R55's condition does not look at the start of an empty range. -/
theorem AllocMeets.congr {ram rxfd : Nat} {txsa txsa' txfd txfd' : Ep → Nat} (h : AllocMeets ram rxfd txsa txfd)
    (hfd : ∀ e, txfd' e = txfd e) (hsa : ∀ e, 0 < txfd e → txsa' e = txsa e) : AllocMeets ram rxfd txsa' txfd' := by
  obtain ⟨hbounds, hapart, hrx⟩ := h
  refine ⟨fun e he => ?_, fun e k hne he hk => ?_, hrx⟩
  · rw [hfd] at he
    rw [hfd, hsa e he]
    exact hbounds e he
  · rw [hfd] at he hk
    rw [hfd, hfd, hsa e he, hsa k hk]
    exact hapart e k hne he hk

theorem AllocFits.setRx {s : State} {w : Nat}
    (h : allocOk s.cfg.fifoRamWords.toNat w (depthsOf s.core.txsa) (depthsOf s.core.txfd) = true) :
    AllocFits (s.setCore { s.core with rxfd := BitVec.ofNat 16 w }) := by
  have hmeets := allocMeets_of_allocOk h
  have hw : w % 2 ^ 16 = w := Nat.mod_eq_of_lt (Nat.lt_of_le_of_lt hmeets.2.2 s.cfg.fifoRamWords.isLt)
  unfold AllocFits
  simp only [State.setCore_cfg, State.setCore_core, BitVec.toNat_ofNat, hw]
  exact hmeets.congr (fun e => (depthsOf_get _ e).symm) fun e _ => (depthsOf_get _ e).symm

theorem AllocFits.setTx {s : State} {e : Ep} {sa w : Nat}
    (h : allocOk s.cfg.fifoRamWords.toNat s.core.rxfd.toNat ((depthsOf s.core.txsa).set e sa)
      ((depthsOf s.core.txfd).set e w) = true) :
    AllocFits (s.setCore { s.core with
      txsa := s.core.txsa.set e (BitVec.ofNat 16 sa), txfd := s.core.txfd.set e (BitVec.ofNat 16 w) }) := by
  have hmeets := allocMeets_of_allocOk h
  have hram := s.cfg.fifoRamWords.isLt
  have hfits : 0 < w → sa + w ≤ s.cfg.fifoRamWords.toNat := fun hw => by
    simpa using (hmeets.1 e (by simpa using hw)).2
  have hw : w % 2 ^ 16 = w := by
    obtain rfl | hw := Nat.eq_zero_or_pos w
    · rfl
    · exact Nat.mod_eq_of_lt (by have := hfits hw; omega)
  refine hmeets.congr (fun k => ?_) fun k hk => ?_
  · simp only [State.setCore_core, PerEp.get_set, depthsOf_get]
    split
    · rw [BitVec.toNat_ofNat, hw]
    · rfl
  · simp only [State.setCore_core, PerEp.get_set, depthsOf_get] at hk ⊢
    split
    · next he =>
      rw [if_pos he] at hk
      have := hfits hk
      exact Nat.mod_eq_of_lt (by omega)
    · rfl

theorem AllocFits.bringUp (s : State) : AllocFits (bringUp s) := by
  simp [AllocFits, AllocMeets, Machine.bringUp, CoreRegs.afterInit]

/-- A change of the current task, which ends every command. -/
theorem AllocFits.onCur {s : State} {f : Task → Task} (hs : AllocFits s) : AllocFits (onCur f s) :=
  hs.of_grows (onCur_grows f s) (by decide)

theorem AllocFits.port {s t : State} (hs : AllocFits s) (h : PortEffect s t) : AllocFits t := by
  have hsame : ∀ {u}, SameAlloc s u → AllocFits u := hs.of_sameAlloc
  cases h with
  | init => exact AllocFits.onCur (.bringUp s)
  | setRx w _ _ _ hok => exact AllocFits.onCur (.setRx hok)
  | setTx e sa w _ _ _ hok => exact AllocFits.onCur (.setTx hok)
  | armIn e size buf tmo t _ hgo => exact hsame (armIn_go hgo).1
  | armOut | armSetup => exact AllocFits.onCur (hsame ⟨rfl, rfl, rfl, rfl⟩)
  | refused | race => exact hsame ⟨rfl, rfl, rfl, rfl⟩
  | error | connect | disconnect | configureIn | configureOut => exact AllocFits.onCur (hsame ⟨rfl, rfl, rfl, rfl⟩)
  | address | stallIn | stallOut | disableIn | disableOut => exact AllocFits.onCur (hsame ⟨rfl, rfl, rfl, rfl⟩)

/-- "FIFO empty" masks interrupts and pushes, which leaves the allocation alone. -/
theorem inEndpoint_sameAlloc (e : Ep) (s : State) : (inEndpoint e s).Within (SameAlloc s) := by
  unfold inEndpoint
  split
  · have hx : SameAlloc s (inXfrcEvent e s) := .of_grows (inXfrcEvent_grows e s) (by decide)
    obtain h | h | ⟨n, q, -, -, h⟩ | h := inTxfeEvent_cases e (inXfrcEvent e s) <;> rw [h]
    · exact hx
    · exact hx.trans ⟨rfl, rfl, rfl, rfl⟩
    · exact (hx.trans (.of_grows (setTxq_grows e q _) (by decide))).trans (advanceDin_sameAlloc e n _)
    · trivial
  · exact ⟨rfl, rfl, rfl, rfl⟩

theorem outEndpoint_sameAlloc (old : OutBank) (e : Ep) (s : State) : (outEndpoint old e s).Within (SameAlloc s) := by
  unfold outEndpoint
  split <;> exact ⟨rfl, rfl, rfl, rfl⟩

theorem dispatch_sameAlloc (s : State) : (dispatch s).Within (SameAlloc s) := by
  refine dispatch_within (P := SameAlloc s) ?reset ?enum ?rx ?inn ?out ?iso ?wake ⟨rfl, rfl, rfl, rfl⟩
  case reset | enum | wake => exact fun u hu => hu.trans ⟨rfl, rfl, rfl, rfl⟩
  case iso => exact fun a b u hu => hu.trans ⟨rfl, rfl, rfl, rfl⟩
  case rx => exact fun u hu => (receiveService_drainsRx u).mono fun t ht => hu.trans (.of_grows ht.grows (by decide))
  case inn => exact fun e u hu => (inEndpoint_sameAlloc e u).mono fun t ht => hu.trans ht
  case out => exact fun old e u hu => (outEndpoint_sameAlloc old e u).mono fun t ht => hu.trans ht

/-- Only INIT and the two FIFO-size commands write the allocation. -/
theorem AllocFits.step {s t : State} (hs : AllocFits s) (h : step s = .next t) : AllocFits t := by
  refine step_keeps (P := AllocFits) ?sched ?cmd ?poll ?disp ?bus ?tick ?refuse ?observe hs h
  case sched => exact fun s sched turns draws cur hs => hs
  case cmd => exact fun i s t k hi _ _ hs he => hs.port (port_effect hi he)
  case poll => exact fun s k dir e t0 tmo _ _ hs => hs.of_grows (poll_effect dir e t0 tmo s).1 (by decide)
  case disp => exact fun s _ hs => (dispatch_sameAlloc s).mono fun t ht => hs.of_sameAlloc ht
  case bus => exact fun m s _ hs => hs.of_sameAlloc (busEffect_sameAlloc m s)
  case tick => exact fun s hs => hs.of_grows (tick_grows s) (by decide)
  case refuse => exact fun r s hs => hs.of_grows (refuse_grows r s) (by decide)
  case observe => exact fun n s hs => hs.of_grows (raise_grows _ s) (by decide)

/-! ## The depths (10_state R37, R38) -/

/-- No FIFO grows, or none grows past its depth. -/
theorem FifosFit.of_sameAlloc {s t : State} (hs : FifosFit s) (h : SameAlloc s t)
    (hrx : t.rxq.length ≤ max s.rxq.length s.core.rxfd.toNat)
    (htx : ∀ e, (t.txq.get e).length ≤ max (s.txq.get e).length (s.core.txfd.get e).toNat) : FifosFit t := by
  obtain ⟨hrxs, htxs⟩ := hs
  refine ⟨by rw [h.rxfd]; omega, fun e => ?_⟩
  have := htx e
  have := htxs e
  rw [h.txfd]
  omega

theorem FifosFit.of_grows {ps : List Part} {s t : State} (hs : FifosFit s) (h : Grows ps s t)
    (hps : ∀ p ∈ [Part.core, .rxq, .txq], p ∉ ps) : FifosFit t := by
  have hcore : t.core = s.core := h.only .core (hps .core (by decide))
  have hrxq : t.rxq = s.rxq := h.only .rxq (hps .rxq (by decide))
  have htxq : t.txq = s.txq := h.only .txq (hps .txq (by decide))
  unfold FifosFit
  rwa [hcore, hrxq, htxq]

/-- One transmit FIFO is replaced, by one that is empty or grows no further than its depth. -/
theorem FifosFit.setTxq {s : State} {e : Ep} {q : List Word} (hs : FifosFit s)
    (hq : q.length ≤ max (s.txq.get e).length (s.core.txfd.get e).toNat) : FifosFit (s.setTxq e q) := by
  refine hs.of_sameAlloc ⟨rfl, rfl, rfl, rfl⟩ (Nat.le_max_left _ _) fun k => ?_
  rw [State.setTxq_txq, PerEp.get_set]
  split
  · next hk => rwa [hk]
  · exact Nat.le_max_left _ _

theorem FifosFit.onCur {s : State} {f : Task → Task} (hs : FifosFit s) : FifosFit (onCur f s) :=
  hs.of_grows (onCur_grows f s) (by decide)

/-- Empty FIFOs fit any depths. -/
theorem FifosFit.of_empty {s : State} (hrx : s.rxq = []) (htx : s.txq = .all []) : FifosFit s := by
  simp [FifosFit, hrx, htx]

/-- A FIFO-size command asks that the FIFO it resizes is empty (41_endpoint_config R99, R100). -/
theorem FifosFit.port {s t : State} (hs : FifosFit s) (h : PortEffect s t) : FifosFit t := by
  obtain ⟨hrxs, htxs⟩ := hs
  cases h with
  | init => exact FifosFit.onCur (.of_empty rfl rfl)
  | setRx w _ hq => exact FifosFit.onCur ⟨by simp [hq], htxs⟩
  | setTx e sa w _ hq =>
    refine FifosFit.onCur ⟨hrxs, fun k => ?_⟩
    simp only [State.setCore_txq, State.setCore_core, PerEp.get_set]
    split
    · next hk => simp [hk, hq]
    · exact htxs k
  | armIn e size buf tmo t _ hgo =>
    obtain ⟨halloc, hrxq, -, -, -, q, htxq, hq⟩ := armIn_go hgo
    obtain ⟨-, hset⟩ : FifosFit (s.setTxq e q) := FifosFit.setTxq ⟨hrxs, htxs⟩ (by omega)
    exact ⟨by rw [hrxq, halloc.rxfd]; exact hrxs, by rw [htxq, halloc.txfd]; exact hset⟩
  | armOut | armSetup => exact FifosFit.onCur ⟨hrxs, htxs⟩
  | refused | race => exact ⟨hrxs, htxs⟩
  | error | connect | disconnect | configureIn | configureOut => exact FifosFit.onCur ⟨hrxs, htxs⟩
  | address | stallIn | stallOut | disableIn | disableOut => exact FifosFit.onCur ⟨hrxs, htxs⟩

theorem FifosFit.endWait {s : State} (dir : Dir) (e : Ep) (v : Word) (hs : FifosFit s) : FifosFit (endWait dir e v s) :=
  hs.of_grows (endWait_grows dir e v s) (by decide)

/-- The recovery of an IN timeout flushes the endpoint's FIFO (43_transfer_api R124). -/
theorem FifosFit.timeoutRecover {s : State} (dir : Dir) (e : Ep) (hs : FifosFit s) :
    FifosFit (timeoutRecover dir e s) := by
  cases dir with
  | inn => exact FifosFit.setTxq (s := disableIn e s) hs (Nat.zero_le _)
  | out => exact hs

theorem FifosFit.poll {s : State} (dir : Dir) (e : Ep) (t0 : Nat) (tmo : Word) (hs : FifosFit s) :
    FifosFit (poll dir e t0 tmo s) := by
  obtain ⟨n, -, h⟩ | ⟨-, h⟩ | ⟨-, -, h⟩ | ⟨-, -, h⟩ := poll_cases dir e t0 tmo s <;> rw [h]
  · exact hs.endWait dir e n
  · exact hs.endWait dir e codeReset
  · exact (hs.timeoutRecover dir e).endWait dir e codeTimeout
  · exact hs

theorem FifosFit.drainsRx {s t : State} (hs : FifosFit s) (h : DrainsRx s t) : FifosFit t := by
  have htxq : t.txq = s.txq := h.grows.only .txq (by decide)
  have hle := h.suffix.length_le
  exact hs.of_sameAlloc (.of_grows h.grows (by decide)) (by omega) fun e => by rw [htxq]; exact Nat.le_max_left _ _

theorem inEndpoint_fifosFit (e : Ep) {s : State} (hs : FifosFit s) : (inEndpoint e s).Within FifosFit := by
  unfold inEndpoint
  split
  · have hx : FifosFit (inXfrcEvent e s) := hs.of_grows (inXfrcEvent_grows e s) (by decide)
    obtain h | h | ⟨n, q, -, hq, h⟩ | h := inTxfeEvent_cases e (inXfrcEvent e s) <;> rw [h]
    · exact hx
    · exact hx
    · have hpush : FifosFit ((inXfrcEvent e s).setTxq e q) := hx.setTxq (by omega)
      have hgrows := advanceDin_grows e n ((inXfrcEvent e s).setTxq e q)
      have hrxq : _ = ((inXfrcEvent e s).setTxq e q).rxq := hgrows.only .rxq (by decide)
      have htxq : _ = ((inXfrcEvent e s).setTxq e q).txq := hgrows.only .txq (by decide)
      exact hpush.of_sameAlloc (advanceDin_sameAlloc e n _) (by rw [hrxq]; exact Nat.le_max_left _ _)
        fun k => by rw [htxq]; exact Nat.le_max_left _ _
    · trivial
  · exact hs

theorem dispatch_fifosFit {s : State} (hs : FifosFit s) : (dispatch s).Within FifosFit := by
  refine dispatch_within (P := FifosFit) ?reset ?enum ?rx ?inn ?out ?iso ?wake hs
  case reset => exact fun u _ => .of_empty rfl rfl
  case enum | wake => exact fun u hu => hu
  case iso => exact fun a b u hu => hu
  case rx => exact fun u hu => (receiveService_drainsRx u).mono fun t ht => hu.drainsRx ht
  case inn => exact fun e u hu => inEndpoint_fifosFit e hu
  case out =>
    intro old e u hu
    unfold outEndpoint
    split <;> exact hu

theorem FifosFit.busEffect {s : State} {m : BusMove} (hs : FifosFit s) (hb : busEnabled s m = true) :
    FifosFit (busEffect s m) := by
  obtain ⟨q, hq, -, hroom⟩ := busEffect_rxq hb
  refine hs.of_sameAlloc (busEffect_sameAlloc m s) ?_ fun e => ?_
  · rw [hq, List.length_append]
    obtain rfl | hroom := hroom
    · exact Nat.le_max_left _ _
    · omega
  · have := busEffect_txq_length m s e
    omega

theorem FifosFit.step {s t : State} (hs : FifosFit s) (h : step s = .next t) : FifosFit t := by
  refine step_keeps (P := FifosFit) ?sched ?cmd ?poll ?disp ?bus ?tick ?refuse ?observe hs h
  case sched => exact fun s sched turns draws cur hs => hs
  case cmd => exact fun i s t k hi _ _ hs he => hs.port (port_effect hi he)
  case poll => exact fun s k dir e t0 tmo _ _ hs => hs.poll dir e t0 tmo
  case disp => exact fun s _ hs => dispatch_fifosFit hs
  case bus => exact fun m s hb hs => hs.busEffect hb
  case tick => exact fun s hs => hs
  case refuse => exact fun r s hs => hs
  case observe => exact fun n s hs => hs

/-- Settles O51: the allocation changes only past the check of R101, a push has room, and a FIFO that is resized is
empty. -/
theorem fifoRamKept : Obligations.FifoRamKept := by
  unfold Obligations.FifoRamKept
  exact ⟨fun s t hs h => hs.step h, fun s t hs h => hs.step h⟩

/-! ## Whole entries (20_memory R61) -/

theorem RxOk.of_grows {ps : List Part} {s t : State} (hs : RxOk s) (h : Grows ps s t)
    (hps : ∀ p ∈ [Part.rxq, .fault], p ∉ ps) : RxOk t := by
  have hrxq : t.rxq = s.rxq := h.only .rxq (hps .rxq (by decide))
  have hfault : t.fault = s.fault := h.only .fault (hps .fault (by decide))
  unfold RxOk
  rwa [hrxq, hfault]

theorem RxOk.onCur {s : State} {f : Task → Task} (hs : RxOk s) : RxOk (onCur f s) :=
  hs.of_grows (onCur_grows f s) (by decide)

/-- A fault other than an underflow leaves no underflow recorded. -/
theorem RxOk.raise {s : State} {f : FaultReason} (hs : RxOk s) (hf : f ≠ .rxUnderflow) : RxOk (raise f s) := by
  obtain ⟨hframed, hfault⟩ := hs
  refine ⟨hframed, ?_⟩
  rw [raise_fault]
  cases h : s.fault with
  | none => simpa using hf
  | some g => simpa [h] using hfault

theorem RxOk.port {s t : State} (hs : RxOk s) (h : PortEffect s t) : RxOk t := by
  cases h with
  | init => exact RxOk.onCur ⟨.nil, hs.2⟩
  | race a => exact hs.raise (by simp)
  | armIn e size buf tmo t hv hgo =>
    obtain ⟨u, hu, harms⟩ := armIn_arms tmo hv
    cases hu.symm.trans hgo
    exact hs.of_grows harms.grows (by decide)
  | armOut | armSetup => exact RxOk.onCur hs
  | refused => exact hs
  | error | connect | disconnect | configureIn | configureOut | setRx | setTx => exact RxOk.onCur hs
  | address | stallIn | stallOut | disableIn | disableOut => exact RxOk.onCur hs

/-- The service pops the status word at the head and then the rest of its entry. -/
theorem receiveService_rxOk {s : State} (hs : RxOk s) : (receiveService s).Within RxOk := by
  obtain ⟨hframed, hfault⟩ := hs
  unfold receiveService
  split
  · exact ⟨hframed, hfault⟩
  · next w q hq =>
    obtain ⟨hlen, hrest⟩ := (hq ▸ hframed).uncons
    refine (receiveEntry_consumes (s := s.setRxq q) hlen).mono fun t ⟨hrxq, hf⟩ => ⟨?_, ?_⟩
    · rw [hrxq]
      exact hrest
    · rw [hf]
      exact hfault

theorem inEndpoint_grows_in (e : Ep) (s : State) : (inEndpoint e s).Within (Grows [.iep, .txq, .din, .core] s) := by
  unfold inEndpoint
  split
  · exact (inTxfeEvent_grows e _).mono fun t ht => ((inXfrcEvent_grows e s).trans ht).mono (by decide)
  · exact .refl _ s

theorem dispatch_rxOk {s : State} (hs : RxOk s) : (dispatch s).Within RxOk := by
  refine dispatch_within (P := RxOk) ?reset ?enum ?rx ?inn ?out ?iso ?wake hs
  case reset => exact fun u hu => ⟨.nil, hu.2⟩
  case enum | wake => exact fun u hu => hu
  case iso => exact fun a b u hu => hu
  case rx => exact fun u hu => receiveService_rxOk hu
  case inn => exact fun e u hu => (inEndpoint_grows_in e u).mono fun t ht => hu.of_grows ht (by decide)
  case out =>
    intro old e u hu
    unfold outEndpoint
    split <;> exact hu

theorem RxOk.busEffect {s : State} {m : BusMove} (hs : RxOk s) (hb : busEnabled s m = true) :
    RxOk (busEffect s m) := by
  obtain ⟨q, hq, hframed, -⟩ := busEffect_rxq hb
  have hfault : (Machine.busEffect s m).fault = s.fault := busEffect_only m s .fault (by decide)
  exact ⟨hq ▸ hs.1.append hframed, hfault ▸ hs.2⟩

theorem RxOk.step {s t : State} (hs : RxOk s) (h : step s = .next t) : RxOk t := by
  refine step_keeps (P := RxOk) ?sched ?cmd ?poll ?disp ?bus ?tick ?refuse ?observe hs h
  case sched => exact fun s sched turns draws cur hs => hs
  case cmd => exact fun i s t k hi _ _ hs he => hs.port (port_effect hi he)
  case poll => exact fun s k dir e t0 tmo _ _ hs => hs.of_grows (poll_effect dir e t0 tmo s).1 (by decide)
  case disp => exact fun s _ hs => dispatch_rxOk hs
  case bus => exact fun m s hb hs => hs.busEffect hb
  case tick => exact fun s hs => hs
  case refuse => exact fun r s hs => hs
  case observe => exact fun n s hs => hs.raise (by simp)

/-- Settles O52: the bus agent pushes whole entries, and the receive service consumes one whole entry. -/
theorem receiveFifoStaysFramed : Obligations.ReceiveFifoStaysFramed := by
  unfold Obligations.ReceiveFifoStaysFramed
  exact fun s t hs h => hs.step h

end Sys2Proof.Machine

/-! SUPPORT. The buffers over one step (20_memory R52, R54, R63): what carries on from an Armed descriptor, which bytes of
the memory that writes, and how an arm keeps Armed buffers apart; and the packing of a packet's bytes (R56 to R58). -/

namespace Sys2Proof.Machine

/-! ## Descriptors that carry on (10_state R41) -/

/-- `d'` is Armed only where `d` was, on the same buffer, with no lower offset. -/
def Descriptor.Continues (d d' : Descriptor) : Prop :=
  d'.status = .armed → d.status = .armed ∧ d'.buf = d.buf ∧ d'.req = d.req ∧ d.off.toNat ≤ d'.off.toNat

theorem Descriptor.Continues.refl (d : Descriptor) : d.Continues d := fun h => ⟨h, rfl, rfl, Nat.le_refl _⟩

theorem Descriptor.Continues.trans {d d' d'' : Descriptor} (h : d.Continues d') (k : d'.Continues d'') :
    d.Continues d'' := fun ha => by
  obtain ⟨ha', hbuf', hreq', hoff'⟩ := k ha
  obtain ⟨ha, hbuf, hreq, hoff⟩ := h ha'
  exact ⟨ha, hbuf'.trans hbuf, hreq'.trans hreq, hoff.trans hoff'⟩

theorem Descriptor.Continues.of_not_armed {d d' : Descriptor} (h : d'.status ≠ .armed) : d.Continues d' :=
  fun ha => absurd ha h

theorem Descriptor.continues_completed (d : Descriptor) : d.Continues d.completed := by
  unfold Descriptor.completed
  split
  · exact .of_not_armed (by simp)
  · exact .refl d

theorem Descriptor.continues_afterReset (d : Descriptor) : d.Continues d.afterReset := by
  unfold Descriptor.afterReset
  split
  · exact .of_not_armed (by simp)
  · exact .refl d

/-- An offset that moves by no more than is left of the request does not wrap. -/
theorem Descriptor.continues_move (d : Descriptor) {n : Nat} (hn : n ≤ d.req.toNat - d.off.toNat) :
    d.Continues { d with off := d.off + BitVec.ofNat 32 n } := fun h => by
  refine ⟨h, rfl, rfl, ?_⟩
  have := d.req.isLt
  have := d.off.isLt
  simp only [BitVec.toNat_add, BitVec.toNat_ofNat]
  omega

/-! ## Parts of a step that arm nothing -/

/-- Address `a` is in the buffer of an Armed OUT descriptor, at or after its offset. -/
def Fillable (s : State) (a : Nat) : Prop :=
  ∃ e, (s.dout.get e).status = .armed ∧ (s.dout.get e).buf.toNat + (s.dout.get e).off.toNat ≤ a ∧
    a < (s.dout.get e).buf.toNat + (s.dout.get e).req.toNat

/-- `t` carries on from `s`: nothing is armed, and a canonical memory stays canonical and changes in the rest of Armed OUT
buffers alone. -/
structure CarriesOn (s t : State) : Prop where
  cfg : t.cfg = s.cfg
  din : ∀ e, (s.din.get e).Continues (t.din.get e)
  dout : ∀ e, (s.dout.get e).Continues (t.dout.get e)
  mem : MemOk s → MemOk t ∧ ∀ a, t.mem.readByte a ≠ s.mem.readByte a → Fillable s a

/-- What can still be written after a part of a step could be written before it. -/
theorem Fillable.of_dout {s t : State} {a : Nat} (h : Fillable t a)
    (hdout : ∀ e, (s.dout.get e).Continues (t.dout.get e)) : Fillable s a := by
  obtain ⟨e, harmed, hlo, hhi⟩ := h
  obtain ⟨harmed, hbuf, hreq, hoff⟩ := hdout e harmed
  rw [hbuf] at hlo hhi
  rw [hreq] at hhi
  exact ⟨e, harmed, by omega, hhi⟩

theorem CarriesOn.of_mem_eq {s t : State} (hcfg : t.cfg = s.cfg) (hmem : t.mem = s.mem)
    (hdin : ∀ e, (s.din.get e).Continues (t.din.get e)) (hdout : ∀ e, (s.dout.get e).Continues (t.dout.get e)) :
    CarriesOn s t := by
  refine ⟨hcfg, hdin, hdout, fun hs => ⟨?_, fun a ha => absurd (by rw [hmem]) ha⟩⟩
  unfold MemOk
  rwa [hcfg, hmem]

theorem CarriesOn.of_eq {s t : State} (hcfg : t.cfg = s.cfg) (hdin : t.din = s.din) (hdout : t.dout = s.dout)
    (hmem : t.mem = s.mem) : CarriesOn s t :=
  .of_mem_eq hcfg hmem (fun _ => hdin ▸ .refl _) fun _ => hdout ▸ .refl _

theorem CarriesOn.trans {s t u : State} (h : CarriesOn s t) (k : CarriesOn t u) : CarriesOn s u where
  cfg := k.cfg.trans h.cfg
  din e := (h.din e).trans (k.din e)
  dout e := (h.dout e).trans (k.dout e)
  mem hs := by
    obtain ⟨ht, hst⟩ := h.mem hs
    obtain ⟨hu, htu⟩ := k.mem ht
    refine ⟨hu, fun a ha => ?_⟩
    by_cases hta : t.mem.readByte a = s.mem.readByte a
    · exact (htu a (hta ▸ ha)).of_dout h.dout
    · exact hst a hta

theorem CarriesOn.refl (s : State) : CarriesOn s s := .of_eq rfl rfl rfl rfl

theorem CarriesOn.onCur (f : Task → Task) (s : State) : CarriesOn s (onCur f s) :=
  .of_eq (by simp) (by simp) (by simp) (by simp)

theorem CarriesOn.setDin {s t : State} {e : Ep} {d : Descriptor} (h : CarriesOn s t)
    (hd : (t.din.get e).Continues d) : CarriesOn s (t.setDin e d) := by
  refine h.trans (.of_mem_eq rfl rfl (fun k => ?_) fun k => .refl _)
  rw [State.setDin_din, PerEp.get_set]
  split
  · next hk => rwa [hk]
  · exact .refl _

theorem CarriesOn.setDout {s t : State} {e : Ep} {d : Descriptor} (h : CarriesOn s t)
    (hd : (t.dout.get e).Continues d) : CarriesOn s (t.setDout e d) := by
  refine h.trans (.of_mem_eq rfl rfl (fun k => .refl _) fun k => ?_)
  rw [State.setDout_dout, PerEp.get_set]
  split
  · next hk => rwa [hk]
  · exact .refl _

/-- Bytes written from the offset of an Armed OUT descriptor on, no more than are left of its request (20_memory R54). -/
theorem CarriesOn.fill {s t : State} {e : Ep} {n : Nat} {bs : List Byte} (harmed : (s.dout.get e).status = .armed)
    (hroom : (s.dout.get e).off.toNat + n ≤ (s.dout.get e).req.toNat) (hbs : bs.length ≤ n)
    (hfits : (s.dout.get e).buf.toNat + (s.dout.get e).off.toNat + n ≤ memBytes s.cfg)
    (hcfg : t.cfg = s.cfg) (hdin : t.din = s.din) (hdout : t.dout = s.dout)
    (hmem : t.mem = s.mem.writeBytes ((s.dout.get e).buf.toNat + (s.dout.get e).off.toNat) bs) : CarriesOn s t := by
  refine ⟨hcfg, fun _ => hdin ▸ .refl _, fun _ => hdout ▸ .refl _, fun hs => ?_⟩
  unfold MemOk
  rw [hcfg, hmem]
  refine ⟨Memory.wf_writeBytes hs (by omega), fun a ha => ⟨e, harmed, ?_⟩⟩
  by_contra hout
  exact ha (Memory.readByte_writeBytes_of_outside hs (by omega) (by omega))

/-! ## An iteration of the dispatcher arms nothing -/

theorem dumpPacket_carriesOn (size : Nat) (s : State) : (dumpPacket size s).Within (CarriesOn s) := by
  obtain ⟨-, h⟩ | ⟨-, h⟩ := dumpPacket_cases size s <;> rw [h]
  · exact .of_eq rfl rfl rfl rfl
  · exact .of_eq rfl rfl rfl rfl

/-- The words that an Armed descriptor keeps go to its buffer from its offset on, and the offset moves past them
(42_bus_event_handler R108). -/
theorem keepData_carriesOn {e : Ep} {bcnt n : Nat} {s : State} (hk : keptBytes (s.dout.get e) bcnt = some n) :
    (keepData e bcnt n s).Within (CarriesOn s) := by
  obtain ⟨harmed, hroom⟩ := keptBytes_some hk
  have hlen : ∀ ws, ((unpackWords ws).take n).length ≤ n := fun ws => List.length_take_le n _
  unfold keepData
  obtain ⟨-, h⟩ | ⟨hfits, -, h⟩ | ⟨hfits, -, h⟩ :=
    readPacket_cases ((s.dout.get e).buf.toNat + (s.dout.get e).off.toNat) n s <;> rw [h]
  · trivial
  · refine (dumpPacket_carriesOn _ _).mono fun u hu => CarriesOn.trans (.setDout ?_ ?_) hu
    · exact .fill harmed hroom (hlen _) hfits rfl rfl rfl rfl
    · exact (s.dout.get e).continues_move (by omega)
  · exact .fill harmed hroom (hlen _) hfits rfl rfl rfl rfl

theorem receiveData_carriesOn (epnum : BitVec 4) (bcnt : BitVec 11) (s : State) :
    (receiveData epnum bcnt s).Within (CarriesOn s) := by
  unfold receiveData
  split
  · exact dumpPacket_carriesOn _ s
  split
  · exact dumpPacket_carriesOn _ s
  · next hk => exact keepData_carriesOn hk

theorem receiveService_carriesOn (s : State) : (receiveService s).Within (CarriesOn s) := by
  unfold receiveService
  split
  · exact .refl s
  next w q _ =>
  have hpop : CarriesOn s (s.setRxq q) := .of_eq rfl rfl rfl rfl
  have hdump : ∀ {u} n, CarriesOn s u → (dumpPacket n u).Within (CarriesOn s) :=
    fun {u} n hu => (dumpPacket_carriesOn n u).mono fun t ht => hu.trans ht
  unfold receiveEntry receiveXferDone receiveSetupDone receiveOther popXferDone popSetupDone
  split
  · exact (receiveData_carriesOn _ _ _).mono fun t ht => hpop.trans ht
  split
  · split <;> exact hdump _ (.of_eq rfl rfl rfl rfl)
  split
  · split <;> exact hdump _ (.of_eq rfl rfl rfl rfl)
  · exact hdump _ hpop

theorem inXfrcEvent_carriesOn (e : Ep) (s : State) : CarriesOn s (inXfrcEvent e s) := by
  unfold inXfrcEvent
  split
  · exact .setDin (.of_eq rfl rfl rfl rfl) (s.din.get e).continues_completed
  · exact .refl s

theorem advanceDin_carriesOn {e : Ep} {n : Nat} {s : State}
    (hn : n ≤ (s.din.get e).req.toNat - (s.din.get e).off.toNat) : CarriesOn s (advanceDin e n s) := by
  have hmove : CarriesOn s (s.setDin e { s.din.get e with off := (s.din.get e).off + BitVec.ofNat 32 n }) :=
    .setDin (.refl s) ((s.din.get e).continues_move hn)
  unfold advanceDin
  simp only
  split
  · exact hmove.trans (.of_eq rfl rfl rfl rfl)
  · exact hmove

theorem inEndpoint_carriesOn (e : Ep) (s : State) : (inEndpoint e s).Within (CarriesOn s) := by
  unfold inEndpoint
  split
  · have hx := inXfrcEvent_carriesOn e s
    obtain h | h | ⟨n, q, hn, -, h⟩ | h := inTxfeEvent_cases e (inXfrcEvent e s) <;> rw [h]
    · exact hx
    · exact hx.trans (.of_eq rfl rfl rfl rfl)
    · have hpush : CarriesOn s ((inXfrcEvent e s).setTxq e q) := hx.trans (.of_eq rfl rfl rfl rfl)
      exact hpush.trans (advanceDin_carriesOn hn)
    · trivial
  · exact .refl s

theorem outEndpoint_carriesOn (old : OutBank) (e : Ep) (s : State) : (outEndpoint old e s).Within (CarriesOn s) := by
  unfold outEndpoint outEvent
  split
  · exact .setDout (.of_eq rfl rfl rfl rfl) (s.dout.get e).continues_completed
  · exact .refl s

theorem busReset_carriesOn (s : State) : CarriesOn s (busReset s) :=
  .of_mem_eq rfl rfl (fun e => (PerEp.get_map _ s.din e).symm ▸ (s.din.get e).continues_afterReset)
    fun e => (PerEp.get_map _ s.dout e).symm ▸ (s.dout.get e).continues_afterReset

theorem dispatch_carriesOn (s : State) : (dispatch s).Within (CarriesOn s) := by
  refine dispatch_within (P := CarriesOn s) ?reset ?enum ?rx ?inn ?out ?iso ?wake (.refl s)
  case reset => exact fun u hu => hu.trans (busReset_carriesOn u)
  case enum | wake => exact fun u hu => hu.trans (.of_eq rfl rfl rfl rfl)
  case iso => exact fun a b u hu => hu.trans (.of_eq rfl rfl rfl rfl)
  case rx => exact fun u hu => (receiveService_carriesOn u).mono fun t ht => hu.trans ht
  case inn => exact fun e u hu => (inEndpoint_carriesOn e u).mono fun t ht => hu.trans ht
  case out => exact fun old e u hu => (outEndpoint_carriesOn old e u).mono fun t ht => hu.trans ht

/-! ## A step carries on, or runs a command -/

theorem endWait_carriesOn (dir : Dir) (e : Ep) (v : Word) (s : State) : CarriesOn s (endWait dir e v s) := by
  unfold endWait
  cases dir with
  | inn => exact .trans (.setDin (.refl s) (.of_not_armed (by simp))) (.onCur _ _)
  | out => exact .trans (.setDout (.refl s) (.of_not_armed (by simp))) (.onCur _ _)

theorem timeoutRecover_carriesOn (dir : Dir) (e : Ep) (s : State) : CarriesOn s (timeoutRecover dir e s) := by
  cases dir <;> exact .of_eq rfl rfl rfl rfl

theorem poll_carriesOn (dir : Dir) (e : Ep) (t0 : Nat) (tmo : Word) (s : State) :
    CarriesOn s (poll dir e t0 tmo s) := by
  obtain ⟨n, -, h⟩ | ⟨-, h⟩ | ⟨-, -, h⟩ | ⟨-, -, h⟩ := poll_cases dir e t0 tmo s <;> rw [h]
  · exact endWait_carriesOn dir e n s
  · exact endWait_carriesOn dir e codeReset s
  · exact (timeoutRecover_carriesOn dir e s).trans (endWait_carriesOn dir e codeTimeout _)
  · exact .refl s

theorem busEffect_mem (m : BusMove) (s : State) : (busEffect s m).mem = s.mem := by
  cases m with
  | reset | enumdone | wake | out | setupdone | take => rfl
  | iso dir => cases dir <;> rfl
  | setup e data frm =>
    unfold busEffect busSetup
    simp only
    split <;> rfl

theorem busEffect_carriesOn (m : BusMove) (s : State) : CarriesOn s (busEffect s m) := by
  have h := busEffect_only m s
  exact .of_eq (h .cfg (by decide)) (h .din (by decide)) (h .dout (by decide)) (busEffect_mem m s)

theorem afterTurn_carriesOn (s : State) : CarriesOn s (afterTurn s) := by
  rw [afterTurn_eq]
  exact .of_eq rfl rfl rfl rfl

theorem taskState_carriesOn (j : Nat) (s : State) : CarriesOn s (taskState j s) :=
  (afterTurn_carriesOn s).trans (.of_eq rfl rfl rfl rfl)

theorem rejectWord_carriesOn (r : DecodeRefusal) (s : State) : CarriesOn s (rejectWord r s) := by
  unfold rejectWord
  split <;> exact .of_eq rfl rfl rfl rfl

theorem observe_carriesOn (j : Nat) (s : State) : CarriesOn s (observe j s) := by
  unfold observe
  split
  · split <;> exact .of_eq rfl rfl rfl rfl
  · exact .refl s

/-- Only a command can arm. -/
theorem step_carriesOn_or_port {s t : State} (h : step s = .next t) :
    CarriesOn s t ∨ ∃ u, CarriesOn s u ∧ PortEffect u t := by
  have hafter := afterTurn_carriesOn s
  obtain ⟨j, k, i, -, -, -, hi, he⟩ | ⟨j, k, r, -, -, -, -, rfl⟩ | ⟨j, k, dir, e, t0, tmo, -, -, -, rfl⟩ |
    ⟨j, k, -, -, -, rfl⟩ | ⟨j, -, -, rfl⟩ | ⟨-, -, hd⟩ | ⟨-, -, rfl⟩ | ⟨m, -, -, rfl⟩ | ⟨m, -, -, rfl⟩ | ⟨-, rfl⟩ |
    ⟨j, -, rfl⟩ := step_cases h
  · exact .inr ⟨_, taskState_carriesOn j s, port_effect (decodeCommand_port hi) he⟩
  · exact .inl ((taskState_carriesOn j s).trans (rejectWord_carriesOn r _))
  · exact .inl ((taskState_carriesOn j s).trans (poll_carriesOn dir e t0 tmo _))
  · exact .inl (taskState_carriesOn j s)
  · exact .inl hafter
  · exact .inl (hafter.trans ((dispatch_carriesOn _).outcome hd))
  · exact .inl hafter
  · exact .inl (hafter.trans (busEffect_carriesOn m _))
  · exact .inl hafter
  · exact .inl (hafter.trans (.of_eq rfl rfl rfl rfl))
  · exact .inl (hafter.trans (observe_carriesOn j _))

/-! ## Bytes written (20_memory R52, R63) -/

/-- No command writes the buffer memory: an IN arm reads its buffer, and an OUT arm leaves it to the dispatcher. -/
theorem PortEffect.mem {s t : State} (h : PortEffect s t) : t.mem = s.mem := by
  cases h with
  | armIn e size buf tmo t _ hgo =>
    obtain ⟨-, -, -, hmem, -, -⟩ := armIn_go hgo
    exact hmem
  | armOut | armSetup => exact onCur_mem _ _
  | refused | race => rfl
  | error | init | connect | disconnect | configureIn | configureOut | setRx | setTx => exact onCur_mem _ _
  | address | stallIn | stallOut | disableIn | disableOut => exact onCur_mem _ _

/-- Settles O56: only the receive service writes the memory, from an Armed OUT descriptor's offset on, and no command
does. -/
theorem onlyArmedBuffersAreWritten : Obligations.OnlyArmedBuffersAreWritten := by
  unfold Obligations.OnlyArmedBuffersAreWritten
  intro s t hs h
  obtain hcarries | ⟨u, hcarries, hport⟩ := step_carriesOn_or_port h
  · exact hcarries.mem hs
  · obtain ⟨hu, hwritten⟩ := hcarries.mem hs
    unfold MemOk
    rw [hport.mem, hport.keeps.1.cfg]
    exact ⟨hu, hwritten⟩

/-! ## Buffers apart (20_memory R54) -/

theorem Apart.symm {b₁ n₁ b₂ n₂ : Nat} (h : Apart b₁ n₁ b₂ n₂) : Apart b₂ n₂ b₁ n₁ :=
  fun a h₂ h₂' h₁ h₁' => h a h₁ h₁' h₂ h₂'

/-- A buffer that owns no byte in common with the Armed ones of a table is apart from each of them. -/
theorem apart_of_not_inArmed {t : PerEp Descriptor} {b n : Nat} {e : Ep}
    (h : ∀ a, b ≤ a → a < b + n → ¬ InArmed t a) (ha : (t.get e).status = .armed) :
    Apart b n (t.get e).buf.toNat (t.get e).req.toNat :=
  fun a hlo hhi hlo' hhi' => h a hlo hhi ⟨e, ha, hlo', hhi'⟩

theorem BuffersApart.of_continues {s t : State} (hs : BuffersApart s)
    (hdin : ∀ e, (s.din.get e).Continues (t.din.get e)) (hdout : ∀ e, (s.dout.get e).Continues (t.dout.get e)) :
    BuffersApart t := by
  obtain ⟨hin, hout⟩ := hs
  refine ⟨fun e k he hk => ?_, fun e k hne he hk => ?_⟩
  · obtain ⟨he, hbuf, hreq, -⟩ := hdout e he
    obtain ⟨hk, hbuf', hreq', -⟩ := hdin k hk
    rw [hbuf, hreq, hbuf', hreq']
    exact hin e k he hk
  · obtain ⟨he, hbuf, hreq, -⟩ := hdout e he
    obtain ⟨hk, hbuf', hreq', -⟩ := hdout k hk
    rw [hbuf, hreq, hbuf', hreq']
    exact hout e k hne he hk

theorem BuffersApart.carriesOn {s t : State} (hs : BuffersApart s) (h : CarriesOn s t) : BuffersApart t :=
  hs.of_continues h.din h.dout

/-- An arm on a buffer that no Armed descriptor owns a byte of. -/
theorem BuffersApart.arm {s : State} {dir : Dir} {e : Ep} {d : Descriptor} (hs : BuffersApart s)
    (hfree : ∀ a, ¬ Owned s dir d.buf.toNat d.req.toNat a) : BuffersApart (setDescriptor s dir e d) := by
  obtain ⟨hin, hout⟩ := hs
  have hdout : ∀ {k}, (s.dout.get k).status = .armed →
      Apart d.buf.toNat d.req.toNat (s.dout.get k).buf.toNat (s.dout.get k).req.toNat :=
    apart_of_not_inArmed fun a hlo hhi ha => hfree a ⟨hlo, hhi, .inl ha⟩
  cases dir with
  | inn =>
    refine ⟨fun k i hk hi => ?_, hout⟩
    simp only [setDescriptor, State.setDin_din, State.setDin_dout, PerEp.get_set] at hk hi ⊢
    split at hi
    · next he =>
      rw [if_pos he]
      exact (hdout hk).symm
    · next he =>
      rw [if_neg he]
      exact hin k i hk hi
  | out =>
    have hdin : ∀ {i}, (s.din.get i).status = .armed →
        Apart d.buf.toNat d.req.toNat (s.din.get i).buf.toNat (s.din.get i).req.toNat :=
      apart_of_not_inArmed fun a hlo hhi ha => hfree a ⟨hlo, hhi, .inr ⟨rfl, ha⟩⟩
    refine ⟨fun k i hk hi => ?_, fun k i hne hk hi => ?_⟩
    · simp only [setDescriptor, State.setDout_din, State.setDout_dout, PerEp.get_set] at hk hi ⊢
      split at hk
      · next he =>
        rw [if_pos he]
        exact hdin hi
      · next he =>
        rw [if_neg he]
        exact hin k i hk hi
    · simp only [setDescriptor, State.setDout_dout, PerEp.get_set] at hk hi ⊢
      by_cases hke : k = e
      · have hie : i ≠ e := fun h => hne (hke.trans h.symm)
        simp only [hke, hie, if_true, if_false] at hk hi ⊢
        exact hdout hi
      · by_cases hie : i = e
        · simp only [hke, hie, if_true, if_false] at hk hi ⊢
          exact (hdout hk).symm
        · simp only [hke, hie, if_false] at hk hi ⊢
          exact hout k i hne hk hi

theorem armedDescriptor_req (buf : Word) (size : BitVec 19) : (armedDescriptor buf size).req.toNat = size.toNat := by
  have := size.isLt
  simp only [armedDescriptor, BitVec.toNat_setWidth]
  omega

/-- The race check of an arm step is what keeps the buffers apart (43_transfer_api R117 (7)). -/
theorem BuffersApart.port {s t : State} (hs : BuffersApart s) (h : PortEffect s t) : BuffersApart t := by
  have harm : ∀ {dir e buf t} {size : BitVec 19} {n : Word}, raceAddr s dir buf.toNat size.toNat = none →
      t.din = (setDescriptor s dir e { armedDescriptor buf size with off := n }).din →
      t.dout = (setDescriptor s dir e { armedDescriptor buf size with off := n }).dout → BuffersApart t :=
    fun {dir e buf t size n} hrace hdin hdout => by
      have hfree := (raceAddr_eq_none _ _ _ _).1 hrace
      rw [← armedDescriptor_req buf size] at hfree
      have hset := hs.arm (e := e) (d := { armedDescriptor buf size with off := n }) hfree
      exact hset.of_continues (fun k => hdin ▸ .refl _) fun k => hdout ▸ .refl _
  have hcur : ∀ {u f}, CarriesOn s u → BuffersApart (onCur f u) := fun {u f} hu => hs.carriesOn (hu.trans (.onCur f u))
  cases h with
  | armIn e size buf tmo t hv hgo =>
    obtain ⟨-, -, -, -, -, -, hrace⟩ := armVerdict_pass hv
    obtain ⟨-, -, hdout, -, ⟨n, hdin⟩, -⟩ := armIn_go hgo
    exact harm hrace hdin hdout
  | armOut e size buf tmo hv =>
    obtain ⟨-, -, -, -, -, -, hrace⟩ := armVerdict_pass hv
    exact harm (n := 0) hrace (onCur_din _ _) (onCur_dout _ _)
  | armSetup e size buf tmo hv =>
    obtain ⟨-, -, -, -, -, -, hrace⟩ := armVerdict_pass hv
    exact harm (n := 0) hrace (onCur_din _ _) (onCur_dout _ _)
  | init =>
    refine hcur (.of_mem_eq rfl rfl (fun e => ?_) fun e => ?_) <;>
      exact (PerEp.get_all Descriptor.empty e).symm ▸ .of_not_armed (by simp [Descriptor.empty])
  | refused | race => exact hs
  | error | connect | disconnect | configureIn | configureOut => exact hcur (.of_eq rfl rfl rfl rfl)
  | setRx | setTx | address | stallIn | stallOut | disableIn | disableOut => exact hcur (.of_eq rfl rfl rfl rfl)

/-- Settles O54: only an arm step makes a buffer Armed, past the check that no other Armed buffer owns a byte of it. -/
theorem armedBuffersStayApart : Obligations.ArmedBuffersStayApart := by
  unfold Obligations.ArmedBuffersStayApart
  intro s t hs h
  obtain hcarries | ⟨u, hcarries, hport⟩ := step_carriesOn_or_port h
  · exact hs.carriesOn hcarries
  · exact (hs.carriesOn hcarries).port hport

/-! ## Packing (20_memory R56 to R58) -/

/-- Settles O11: what packed words carry, the least number of words, and the unpacking of packed bytes. -/
theorem packingIsLittleEndian : Obligations.PackingIsLittleEndian := by
  unfold Obligations.PackingIsLittleEndian
  intro pad bs
  obtain ⟨hlen, hbytes⟩ := carries_packBytes pad (bs := bs) (f := fun i => bs[i]?.getD 0) rfl fun i hi => by
    simp [List.getElem?_eq_getElem hi]
  have hleast := wordsFor_le_iff bs.length
  refine ⟨fun i b hb => ?byte, ?fewest, ?enough, unpackWords_packBytes pad bs⟩
  case byte =>
    obtain ⟨w, hw, hbyte⟩ := hbytes i (List.getElem?_eq_some_iff.1 hb).1
    refine ⟨w, hw, ?_⟩
    rw [← byteAt_toNat, hbyte]
    simp [hb]
  case fewest =>
    have hless := hleast (wordsFor bs.length - 1)
    rw [hlen]
    omega
  case enough =>
    rw [hlen]
    exact (hleast _).1 (Nat.le_refl _)

end Sys2Proof.Machine

/-! SUPPORT. Proofs of the statements about encoding (30_encoding R70 to R76): the fields of a word are digits of its
number, so an encoding and its fields are compared as numbers; and what the command port reads from a word, said once. -/

namespace Sys2Proof.Machine

/-! ## The fields of a word as numbers (30_encoding R71, R73, R85) -/

theorem extractLsb'_toNat_div {n : Nat} (w : BitVec n) (lo len : Nat) :
    (w.extractLsb' lo len).toNat = w.toNat / 2 ^ lo % 2 ^ len := by
  rw [BitVec.extractLsb'_toNat, Nat.shiftRight_eq_div_pow]

theorem append_toNat {m n : Nat} (x : BitVec m) (y : BitVec n) : (x ++ y).toNat = x.toNat * 2 ^ n + y.toNat := by
  rw [BitVec.toNat_append, ← Nat.shiftLeft_add_eq_or_of_lt y.isLt, Nat.shiftLeft_eq]

theorem opField_toNat (w : Word) : (opField w).toNat = w.toNat / 2 ^ 27 := by
  have hw : w.toNat < 2 ^ 32 := w.isLt
  rw [opField, extractLsb'_toNat_div]
  omega

theorem epField_val (w : Word) : (epField w).val = w.toNat / 2 ^ 24 % 2 ^ 3 := extractLsb'_toNat_div w 24 3
theorem tyField_toNat (w : Word) : (tyField w).toNat = w.toNat / 2 ^ 22 % 2 ^ 2 := extractLsb'_toNat_div w 22 2
theorem wordsField_toNat (w : Word) : (wordsField w).toNat = w.toNat % 2 ^ 16 := by
  rw [wordsField, extractLsb'_toNat_div, Nat.pow_zero, Nat.div_one]
theorem mpsFieldOf_toNat (w : Word) : (mpsFieldOf w).toNat = w.toNat % 2 ^ 11 := by
  rw [mpsFieldOf, extractLsb'_toNat_div, Nat.pow_zero, Nat.div_one]
theorem sizeField_toNat (w : Word) : (sizeField w).toNat = w.toNat % 2 ^ 19 := by
  rw [sizeField, extractLsb'_toNat_div, Nat.pow_zero, Nat.div_one]
theorem addrField_toNat (w : Word) : (addrField w).toNat = w.toNat % 2 ^ 7 := by
  rw [addrField, extractLsb'_toNat_div, Nat.pow_zero, Nat.div_one]

@[simp] theorem EpType.ofCode_code (ty : EpType) : EpType.ofCode ty.code = ty := by
  cases ty <;> rfl

@[simp] theorem EpType.code_ofCode (c : BitVec 2) : (EpType.ofCode c).code = c := by
  revert c; decide

/-! ## A command word and its fields (30_encoding R71) -/

theorem commandWord_toNat (op : BitVec 5) (e : Ep) (ty : BitVec 2) (arg : BitVec 22) :
    (commandWord op e ty arg).toNat = op.toNat * 2 ^ 27 + e.val * 2 ^ 24 + ty.toNat * 2 ^ 22 + arg.toNat := by
  have he : (BitVec.ofFin (w := 3) e).toNat = e.val := rfl
  simp only [commandWord, append_toNat, he]
  omega

section Fields

variable (op : BitVec 5) (e : Ep) (ty : BitVec 2) (arg : BitVec 22)

@[simp] theorem epField_commandWord : epField (commandWord op e ty arg) = e := by
  have hty : ty.toNat < 2 ^ 2 := ty.isLt
  have harg : arg.toNat < 2 ^ 22 := arg.isLt
  apply Fin.ext
  rw [epField_val, commandWord_toNat]
  omega

@[simp] theorem tyField_commandWord : tyField (commandWord op e ty arg) = ty := by
  have harg : arg.toNat < 2 ^ 22 := arg.isLt
  apply BitVec.eq_of_toNat_eq
  rw [tyField_toNat, commandWord_toNat]
  omega

/-- The operands below bit 22 stand in the argument. -/
theorem commandWord_low {n : Nat} (hn : n ≤ 22) : (commandWord op e ty arg).extractLsb' 0 n = arg.setWidth n := by
  apply BitVec.eq_of_toNat_eq
  rw [extractLsb'_toNat_div, commandWord_toNat, Nat.pow_zero, Nat.div_one, BitVec.toNat_setWidth]
  have hdvd : 2 ^ n ∣ op.toNat * 2 ^ 27 + e.val * 2 ^ 24 + ty.toNat * 2 ^ 22 :=
    (Nat.pow_dvd_pow 2 hn).trans ⟨op.toNat * 32 + e.val * 4 + ty.toNat, by omega⟩
  obtain ⟨k, hk⟩ := hdvd
  rw [hk, Nat.mul_add_mod]

@[simp] theorem wordsField_commandWord : wordsField (commandWord op e ty arg) = arg.setWidth 16 :=
  commandWord_low op e ty arg (by decide)
@[simp] theorem mpsFieldOf_commandWord : mpsFieldOf (commandWord op e ty arg) = arg.setWidth 11 :=
  commandWord_low op e ty arg (by decide)
@[simp] theorem sizeField_commandWord : sizeField (commandWord op e ty arg) = arg.setWidth 19 :=
  commandWord_low op e ty arg (by decide)
@[simp] theorem addrField_commandWord : addrField (commandWord op e ty arg) = arg.setWidth 7 :=
  commandWord_low op e ty arg (by decide)

end Fields

/-! ## The bits that must be zero (30_encoding R74, R75) -/

/-- The bits of a register word that a field takes, masked out of a word. -/
theorem and_fieldAt_allOnes (w : Word) (lo len : Nat) :
    w &&& fieldAt (BitVec.allOnes len) lo = fieldAt (w.extractLsb' lo len) lo := by
  apply BitVec.eq_of_getLsbD_eq
  intro j hj
  simp only [BitVec.getLsbD_and, fieldAt_getLsbD, BitVec.getLsbD_allOnes, BitVec.getLsbD_extractLsb']
  by_cases hlo : lo ≤ j
  · simp [hj, hlo, Bool.and_comm]
  · simp [hlo]

theorem fieldAt_inj {len lo : Nat} {v v' : BitVec len} (hlen : lo + len ≤ 32) :
    fieldAt v lo = fieldAt v' lo ↔ v = v' := by
  refine ⟨fun h => BitVec.eq_of_getLsbD_eq fun i hi => ?_, fun h => h ▸ rfl⟩
  have hbit : (fieldAt v lo).getLsbD (lo + i) = (fieldAt v' lo).getLsbD (lo + i) := by rw [h]
  have hlt : lo + i < 32 := by omega
  rw [fieldAt_getLsbD, fieldAt_getLsbD] at hbit
  simpa [hlt] using hbit

/-- A word has the value `v` in the field of a mask exactly when the word masked is `v` in place. -/
theorem and_fieldAt_eq_iff (w : Word) {lo len : Nat} (v : BitVec len) (hlen : lo + len ≤ 32) :
    w &&& fieldAt (BitVec.allOnes len) lo = fieldAt v lo ↔ w.toNat / 2 ^ lo % 2 ^ len = v.toNat := by
  rw [and_fieldAt_allOnes, fieldAt_inj hlen, ← BitVec.toNat_inj, extractLsb'_toNat_div]

/-- The must-be-zero bits of a command word as one field, by OP: its lowest bit and its width. -/
def zeroField : Nat → Nat × Nat
  | 1 | 2 | 3 => (0, 27)
  | 4 => (16, 11)
  | 5 => (16, 8)
  | 6 | 7 => (11, 11)
  | 8 | 9 | 10 => (19, 5)
  | 11 => (7, 20)
  | 12 | 13 | 14 | 15 => (0, 24)
  | _ => (0, 0)

/-- The mask of OP. -/
def opMask : Word := fieldAt (BitVec.allOnes 5) 27

/-- The must-be-zero bits are below OP, and a row of the match and mask table is OP and the zeros (30_encoding R75). -/
theorem commandRow_eq : ∀ op ∈ List.range' 1 15,
    (zeroField op).1 + (zeroField op).2 ≤ 27 ∧
    zeroBits op = fieldAt (BitVec.allOnes (zeroField op).2) (zeroField op).1 ∧
    commandMask op = opMask ||| zeroBits op ∧ commandMask op &&& opMask = opMask ∧
    commandMask op &&& zeroBits op = zeroBits op ∧ commandMatch op = fieldAt (BitVec.ofNat 5 op) 27 ∧
    commandMatch op &&& opMask = commandMatch op ∧ commandMatch op &&& zeroBits op = 0 := by
  decide

/-- Whether the must-be-zero bits of OP `op` are 0 in `w`. -/
def Zeros (op : Nat) (w : Word) : Prop := w.toNat / 2 ^ (zeroField op).1 % 2 ^ (zeroField op).2 = 0

section Row

variable {op : Nat} (hop : 1 ≤ op ∧ op ≤ 15) (w : Word)

include hop

theorem and_zeroBits_eq_zero_iff : w &&& zeroBits op = 0 ↔ Zeros op w := by
  obtain ⟨hlt, hzero, -⟩ := commandRow_eq op (List.mem_range'_1.2 (by omega))
  have h := and_fieldAt_eq_iff w (lo := (zeroField op).1) (0 : BitVec (zeroField op).2) (by omega)
  have h0 : fieldAt (0 : BitVec (zeroField op).2) (zeroField op).1 = 0 := by simp [fieldAt]
  rwa [h0, ← hzero] at h

theorem and_opMask_eq_match_iff : w &&& opMask = commandMatch op ↔ (opField w).toNat = op := by
  obtain ⟨-, -, -, -, -, hmatch, -⟩ := commandRow_eq op (List.mem_range'_1.2 (by omega))
  have hw : w.toNat < 2 ^ 32 := w.isLt
  have hlt : op % 2 ^ 5 = op := Nat.mod_eq_of_lt (by omega)
  rw [hmatch, opMask, and_fieldAt_eq_iff w _ (by decide), BitVec.toNat_ofNat, hlt, opField_toNat]
  omega

/-- A word matches a command's row exactly when it has the row's OP and its zeros (30_encoding R75). -/
theorem and_commandMask_eq_match_iff :
    w &&& commandMask op = commandMatch op ↔ (opField w).toNat = op ∧ w &&& zeroBits op = 0 := by
  rw [← and_opMask_eq_match_iff hop]
  obtain ⟨-, -, hmask, hmaskOp, hmaskZero, -, hmatchOp, hmatchZero⟩ := commandRow_eq op (List.mem_range'_1.2 (by omega))
  constructor
  · intro h
    constructor
    · rw [← hmaskOp, ← BitVec.and_assoc, h, hmatchOp]
    · rw [← hmaskZero, ← BitVec.and_assoc, h, hmatchZero]
  · intro ⟨hmatch, hzero⟩
    rw [hmask, BitVec.and_or_distrib_left, hmatch, hzero]
    exact BitVec.or_zero

end Row

/-! ## What the command port decodes (30_encoding R74 to R76) -/

section Port

variable {w : Word} (rest : List Word)

theorem decodeCommand_of_internalOp (h : 24 ≤ (opField w).toNat ∧ (opField w).toNat ≤ 26) :
    decodeCommand (w :: rest) = .error .internalOp := by
  have hint : internalOp (opField w).toNat = true := by
    simp only [internalOp, Bool.or_eq_true, beq_iff_eq]
    omega
  simp [decodeCommand, hint]

/-- An OP that is neither a primitive's nor a command's is reserved. -/
theorem decodeCommand_of_reservedOp
    (h : (opField w).toNat = 0 ∨ (16 ≤ (opField w).toNat ∧ (opField w).toNat ≤ 23) ∨ 27 ≤ (opField w).toNat) :
    decodeCommand (w :: rest) = .error .reservedOp := by
  have hint : internalOp (opField w).toNat = false := by
    simp only [internalOp, Bool.or_eq_false_iff, beq_eq_false_iff_ne]
    omega
  have hcmd : commandOp (opField w).toNat = false := by
    simp only [commandOp, Bool.and_eq_false_iff, decide_eq_false_iff_not]
    omega
  simp [decodeCommand, hint, hcmd]

/-- A command's OP leaves the port one check, the must-be-zero bits (30_encoding R76). -/
theorem decodeCommand_of_commandOp (hop : 1 ≤ (opField w).toNat ∧ (opField w).toNat ≤ 15) :
    decodeCommand (w :: rest) =
      if w &&& zeroBits (opField w).toNat = 0 then commandOf w rest else .error .nonZeroField := by
  have hint : internalOp (opField w).toNat = false := by
    simp only [internalOp, Bool.or_eq_false_iff, beq_eq_false_iff_ne]
    omega
  have hcmd : commandOp (opField w).toNat = true := by
    simpa only [commandOp, Bool.and_eq_true, decide_eq_true_eq] using hop
  simp [decodeCommand, hint, hcmd, and_commandMask_eq_match_iff hop w]

end Port

/-- The port decodes a word to a command exactly when its OP is a command's, its must-be-zero bits are 0 and its operand
words are there. -/
theorem decodeCommand_eq_ok_iff {w : Word} {rest : List Word} {i : Instr} :
    decodeCommand (w :: rest) = .ok i ↔ (1 ≤ (opField w).toNat ∧ (opField w).toNat ≤ 15) ∧
      w &&& zeroBits (opField w).toNat = 0 ∧ commandOf w rest = .ok i := by
  by_cases hop : 1 ≤ (opField w).toNat ∧ (opField w).toNat ≤ 15
  · rw [decodeCommand_of_commandOp rest hop]
    split
    · next h => simp [hop, h]
    · next h => exact ⟨nofun, fun hi => absurd hi.2.1 h⟩
  · have hno : decodeCommand (w :: rest) ≠ .ok i := by
      by_cases hint : 24 ≤ (opField w).toNat ∧ (opField w).toNat ≤ 26
      · rw [decodeCommand_of_internalOp rest hint]
        exact nofun
      · rw [decodeCommand_of_reservedOp rest (by omega)]
        exact nofun
    exact ⟨fun h => absurd h hno, fun h => absurd h.1 hop⟩

/-- What the port makes of the fields of a word, by its OP (30_encoding R74): `commandOf` as a relation. -/
inductive Reads (w : Word) (rest : List Word) : Instr → Prop
  | init : opField w = 1 → Reads w rest .init
  | connect : opField w = 2 → Reads w rest .connect
  | disconnect : opField w = 3 → Reads w rest .disconnect
  | setRxFifoSize : opField w = 4 → Reads w rest (.setRxFifoSize (wordsField w))
  | setTxFifoSize : opField w = 5 → Reads w rest (.setTxFifoSize (epField w) (wordsField w))
  | configureInEp : opField w = 6 → Reads w rest (.configureInEp (epField w) (.ofCode (tyField w)) (mpsFieldOf w))
  | configureOutEp : opField w = 7 → Reads w rest (.configureOutEp (epField w) (.ofCode (tyField w)) (mpsFieldOf w))
  | inTransfer {buf tmo more} : opField w = 8 → rest = buf :: tmo :: more →
      Reads w rest (.inTransfer (epField w) (sizeField w) buf tmo)
  | outTransfer {buf tmo more} : opField w = 9 → rest = buf :: tmo :: more →
      Reads w rest (.outTransfer (epField w) (sizeField w) buf tmo)
  | setupTransfer {buf tmo more} : opField w = 10 → rest = buf :: tmo :: more →
      Reads w rest (.setupTransfer (epField w) (sizeField w) buf tmo)
  | setDeviceAddress : opField w = 11 → Reads w rest (.setDeviceAddress (addrField w))
  | stallInEp : opField w = 12 → Reads w rest (.stallInEp (epField w))
  | stallOutEp : opField w = 13 → Reads w rest (.stallOutEp (epField w))
  | disableInEp : opField w = 14 → Reads w rest (.disableInEp (epField w))
  | disableOutEp : opField w = 15 → Reads w rest (.disableOutEp (epField w))

theorem withOperandWords_eq_ok {rest : List Word} {f : Word → Word → Instr} {i : Instr}
    (h : withOperandWords rest f = .ok i) : ∃ buf tmo more, rest = buf :: tmo :: more ∧ i = f buf tmo := by
  unfold withOperandWords at h
  split at h
  · next buf tmo more => cases h; exact ⟨buf, tmo, more, rfl, rfl⟩
  · cases h

theorem opField_eq {w : Word} {op : BitVec 5} (h : (opField w).toNat = op.toNat) : opField w = op :=
  BitVec.eq_of_toNat_eq h

theorem commandOf_eq_ok_iff {w : Word} {rest : List Word} {i : Instr} : commandOf w rest = .ok i ↔ Reads w rest i := by
  constructor
  · intro h
    unfold commandOf at h
    split at h
    case h_1 hop => cases h; exact .init (opField_eq hop)
    case h_2 hop => cases h; exact .connect (opField_eq hop)
    case h_3 hop => cases h; exact .disconnect (opField_eq hop)
    case h_4 hop => cases h; exact .setRxFifoSize (opField_eq hop)
    case h_5 hop => cases h; exact .setTxFifoSize (opField_eq hop)
    case h_6 hop => cases h; exact .configureInEp (opField_eq hop)
    case h_7 hop => cases h; exact .configureOutEp (opField_eq hop)
    case h_8 hop =>
      obtain ⟨buf, tmo, more, hr, rfl⟩ := withOperandWords_eq_ok h
      exact .inTransfer (opField_eq hop) hr
    case h_9 hop =>
      obtain ⟨buf, tmo, more, hr, rfl⟩ := withOperandWords_eq_ok h
      exact .outTransfer (opField_eq hop) hr
    case h_10 hop =>
      obtain ⟨buf, tmo, more, hr, rfl⟩ := withOperandWords_eq_ok h
      exact .setupTransfer (opField_eq hop) hr
    case h_11 hop => cases h; exact .setDeviceAddress (opField_eq hop)
    case h_12 hop => cases h; exact .stallInEp (opField_eq hop)
    case h_13 hop => cases h; exact .stallOutEp (opField_eq hop)
    case h_14 hop => cases h; exact .disableInEp (opField_eq hop)
    case h_15 hop => cases h; exact .disableOutEp (opField_eq hop)
    case h_16 => cases h
  · intro h
    cases h with
    | inTransfer hop hr | outTransfer hop hr | setupTransfer hop hr => subst hr; simp [commandOf, hop, withOperandWords]
    | _ hop => simp [commandOf, hop]

/-! ## Encodings (30_encoding R71 to R74) -/

theorem opField_eq_iff (w : Word) (op : BitVec 5) : opField w = op ↔ w.toNat / 2 ^ 27 = op.toNat := by
  rw [← BitVec.toNat_inj, opField_toNat]

/-- The words after a command begin behind its own words, whose number OP tells (30_encoding R72). -/
theorem dropCommand_cons (w : Word) (rest : List Word) :
    dropCommand (w :: rest) = rest.drop (if opField w = 8 ∨ opField w = 9 ∨ opField w = 10 then 2 else 0) := by
  simp only [dropCommand, commandLength]
  split <;> rfl

section Layout

/-! A word is put together from its OP and the operands of a layout exactly when the must-be-zero bits of the layout are
0. -/

variable {w : Word} {op : BitVec 5} (hop : opField w = op)

include hop

/-- A word is put together from its own OP and other fields exactly when those make up the bits below OP. -/
theorem commandWord_eq_iff (e : Ep) (ty : BitVec 2) (arg : BitVec 22) :
    commandWord op e ty arg = w ↔ e.val * 2 ^ 24 + ty.toNat * 2 ^ 22 + arg.toNat = w.toNat % 2 ^ 27 := by
  rw [← BitVec.toNat_inj, commandWord_toNat, ← hop, opField_toNat]
  omega

theorem commandWord_bare_eq_iff : commandWord op 0 0 0 = w ↔ w.toNat / 2 ^ 0 % 2 ^ 27 = 0 := by
  simp [commandWord_eq_iff hop]
  omega

theorem commandWord_words_eq_iff :
    commandWord op 0 0 ((wordsField w).setWidth 22) = w ↔ w.toNat / 2 ^ 16 % 2 ^ 11 = 0 := by
  rw [commandWord_eq_iff hop, BitVec.toNat_setWidth, wordsField_toNat]
  simp
  omega

theorem commandWord_ep_words_eq_iff :
    commandWord op (epField w) 0 ((wordsField w).setWidth 22) = w ↔ w.toNat / 2 ^ 16 % 2 ^ 8 = 0 := by
  rw [commandWord_eq_iff hop, BitVec.toNat_setWidth, wordsField_toNat, epField_val]
  simp
  omega

theorem commandWord_ep_ty_mps_eq_iff :
    commandWord op (epField w) (tyField w) ((mpsFieldOf w).setWidth 22) = w ↔ w.toNat / 2 ^ 11 % 2 ^ 11 = 0 := by
  rw [commandWord_eq_iff hop, BitVec.toNat_setWidth, mpsFieldOf_toNat, epField_val, tyField_toNat]
  omega

theorem commandWord_ep_size_eq_iff :
    commandWord op (epField w) 0 ((sizeField w).setWidth 22) = w ↔ w.toNat / 2 ^ 19 % 2 ^ 5 = 0 := by
  rw [commandWord_eq_iff hop, BitVec.toNat_setWidth, sizeField_toNat, epField_val]
  simp
  omega

theorem commandWord_addr_eq_iff :
    commandWord op 0 0 ((addrField w).setWidth 22) = w ↔ w.toNat / 2 ^ 7 % 2 ^ 20 = 0 := by
  rw [commandWord_eq_iff hop, BitVec.toNat_setWidth, addrField_toNat]
  simp
  omega

theorem commandWord_ep_eq_iff : commandWord op (epField w) 0 0 = w ↔ w.toNat / 2 ^ 0 % 2 ^ 24 = 0 := by
  rw [commandWord_eq_iff hop, epField_val]
  simp
  omega

end Layout

theorem Reads.op {w : Word} {rest : List Word} {i : Instr} (h : Reads w rest i) : i.op = some (opField w) := by
  cases h with
  | inTransfer hop | outTransfer hop | setupTransfer hop => rw [hop]; rfl
  | _ hop => rw [hop]; rfl

/-- A word, with its operand words, is the encoding of what it reads as exactly when the must-be-zero bits are 0. -/
theorem Reads.zeros_iff {w : Word} {rest : List Word} {i : Instr} (h : Reads w rest i) :
    Zeros (opField w).toNat w ↔ encode i ++ dropCommand (w :: rest) = w :: rest := by
  rw [dropCommand_cons]
  cases h with
  | inTransfer hop hr | outTransfer hop hr | setupTransfer hop hr =>
    simpa [encode, Zeros, zeroField, hop, hr] using (commandWord_ep_size_eq_iff hop).symm
  | init hop | connect hop | disconnect hop =>
    simpa [encode, Zeros, zeroField, hop] using (commandWord_bare_eq_iff hop).symm
  | setRxFifoSize hop => simpa [encode, Zeros, zeroField, hop] using (commandWord_words_eq_iff hop).symm
  | setTxFifoSize hop => simpa [encode, Zeros, zeroField, hop] using (commandWord_ep_words_eq_iff hop).symm
  | configureInEp hop | configureOutEp hop =>
    simpa [encode, Zeros, zeroField, hop] using (commandWord_ep_ty_mps_eq_iff hop).symm
  | setDeviceAddress hop => simpa [encode, Zeros, zeroField, hop] using (commandWord_addr_eq_iff hop).symm
  | stallInEp hop | stallOutEp hop | disableInEp hop | disableOutEp hop =>
    simpa [encode, Zeros, zeroField, hop] using (commandWord_ep_eq_iff hop).symm

/-- The port takes as many words as the encoding has (30_encoding R72). -/
theorem Reads.dropCommand {w : Word} {rest : List Word} {i : Instr} (h : Reads w rest i) :
    dropCommand (w :: rest) = rest.drop ((encode i).length - 1) := by
  rw [dropCommand_cons]
  cases h with
  | inTransfer hop | outTransfer hop | setupTransfer hop => simp [hop, encode]
  | _ hop => simp [hop, encode]

/-- The operands of a command are the fields of its own encoding. -/
theorem reads_encode {i : Instr} (hi : i.space = .port) (rest : List Word) :
    ∃ w tail, encode i = w :: tail ∧ Reads w (tail ++ rest) i := by
  cases i with
  | init => exact ⟨_, _, rfl, .init (Laws.opField_commandWord ..)⟩
  | connect => exact ⟨_, _, rfl, .connect (Laws.opField_commandWord ..)⟩
  | disconnect => exact ⟨_, _, rfl, .disconnect (Laws.opField_commandWord ..)⟩
  | setRxFifoSize words =>
    exact ⟨_, _, rfl, by simpa using Reads.setRxFifoSize (Laws.opField_commandWord 4 0 0 (words.setWidth 22))⟩
  | setTxFifoSize e words =>
    exact ⟨_, _, rfl, by simpa using Reads.setTxFifoSize (Laws.opField_commandWord 5 e 0 (words.setWidth 22))⟩
  | configureInEp e ty mps =>
    exact ⟨_, _, rfl, by simpa using Reads.configureInEp (Laws.opField_commandWord 6 e ty.code (mps.setWidth 22))⟩
  | configureOutEp e ty mps =>
    exact ⟨_, _, rfl, by simpa using Reads.configureOutEp (Laws.opField_commandWord 7 e ty.code (mps.setWidth 22))⟩
  | inTransfer e size buf tmo =>
    exact ⟨_, _, rfl, by simpa using Reads.inTransfer (Laws.opField_commandWord 8 e 0 (size.setWidth 22)) rfl⟩
  | outTransfer e size buf tmo =>
    exact ⟨_, _, rfl, by simpa using Reads.outTransfer (Laws.opField_commandWord 9 e 0 (size.setWidth 22)) rfl⟩
  | setupTransfer e size buf tmo =>
    exact ⟨_, _, rfl, by simpa using Reads.setupTransfer (Laws.opField_commandWord 10 e 0 (size.setWidth 22)) rfl⟩
  | setDeviceAddress addr =>
    exact ⟨_, _, rfl, by simpa using Reads.setDeviceAddress (Laws.opField_commandWord 11 0 0 (addr.setWidth 22))⟩
  | stallInEp e => exact ⟨_, _, rfl, by simpa using Reads.stallInEp (Laws.opField_commandWord 12 e 0 0)⟩
  | stallOutEp e => exact ⟨_, _, rfl, by simpa using Reads.stallOutEp (Laws.opField_commandWord 13 e 0 0)⟩
  | disableInEp e => exact ⟨_, _, rfl, by simpa using Reads.disableInEp (Laws.opField_commandWord 14 e 0 0)⟩
  | disableOutEp e => exact ⟨_, _, rfl, by simpa using Reads.disableOutEp (Laws.opField_commandWord 15 e 0 0)⟩
  | readPacket | writePacket | dumpPacket => cases hi
  | svcUsbrst | svcEnumdne | svcRxflvl | svcIepint | svcOepint | svcIisoixfr | svcIpxfr | svcWkupint => cases hi
  | rxGlobalOutNak | rxOutData | rxOutXferDone | rxSetupDone | rxSetupData => cases hi
  | iepXfrc | iepTxfe | oepXfrc | oepStup => cases hi

/-- A word that reads as a command has a command's OP (30_encoding R74). -/
theorem Reads.commandOp {w : Word} {rest : List Word} {i : Instr} (h : Reads w rest i) :
    1 ≤ (opField w).toNat ∧ (opField w).toNat ≤ 15 := by
  cases h with
  | inTransfer hop | outTransfer hop | setupTransfer hop => rw [hop]; decide
  | _ hop => rw [hop]; decide

/-- The port decodes a word as it reads it, where the must-be-zero bits are 0. -/
theorem decodeCommand_eq_ok_iff_reads {w : Word} {rest : List Word} {i : Instr} :
    decodeCommand (w :: rest) = .ok i ↔ Reads w rest i ∧ Zeros (opField w).toNat w := by
  rw [decodeCommand_eq_ok_iff, commandOf_eq_ok_iff]
  constructor
  · intro ⟨hop, hzero, hread⟩
    exact ⟨hread, (and_zeroBits_eq_zero_iff hop w).1 hzero⟩
  · intro ⟨hread, hzero⟩
    exact ⟨hread.commandOp, (and_zeroBits_eq_zero_iff hread.commandOp w).2 hzero, hread⟩

theorem dropCommand_encode {i : Instr} (hi : i.space = .port) (rest : List Word) :
    dropCommand (encode i ++ rest) = rest := by
  obtain ⟨w, tail, henc, hread⟩ := reads_encode hi rest
  rw [henc, List.cons_append, hread.dropCommand, henc]
  exact List.drop_left

/-- The port inverts the encoder (30_encoding R70 to R74). -/
theorem decodeCommand_encode {i : Instr} (hi : i.space = .port) (rest : List Word) :
    decodeCommand (encode i ++ rest) = .ok i := by
  obtain ⟨w, tail, henc, hread⟩ := reads_encode hi rest
  have hdrop := dropCommand_encode hi rest
  rw [henc, List.cons_append] at hdrop ⊢
  exact decodeCommand_eq_ok_iff_reads.2 ⟨hread, hread.zeros_iff.2 (by rw [henc, hdrop, List.cons_append])⟩

/-! ## The block's own selections (30_encoding R74, R77, R83 to R85) -/

theorem rxStatusWord_toNat (epnum : BitVec 4) (bcnt : BitVec 11) (dpid : BitVec 2) (kind frm : BitVec 4) :
    (rxStatusWord epnum bcnt dpid kind frm).toNat =
      frm.toNat * 2 ^ 21 + kind.toNat * 2 ^ 17 + dpid.toNat * 2 ^ 15 + bcnt.toNat * 2 ^ 4 + epnum.toNat := by
  have h0 : (0 : BitVec 7).toNat = 0 := rfl
  simp only [rxStatusWord, append_toNat, h0]
  omega

section RxFields

variable (epnum : BitVec 4) (bcnt : BitVec 11) (dpid : BitVec 2) (kind frm : BitVec 4)

@[simp] theorem rxEpnum_rxStatusWord : rxEpnum (rxStatusWord epnum bcnt dpid kind frm) = epnum := by
  apply BitVec.eq_of_toNat_eq
  rw [rxEpnum, extractLsb'_toNat_div, rxStatusWord_toNat]
  omega

@[simp] theorem rxDpid_rxStatusWord : rxDpid (rxStatusWord epnum bcnt dpid kind frm) = dpid := by
  apply BitVec.eq_of_toNat_eq
  rw [rxDpid, extractLsb'_toNat_div, rxStatusWord_toNat]
  omega

@[simp] theorem rxPktsts_rxStatusWord : rxPktsts (rxStatusWord epnum bcnt dpid kind frm) = kind := by
  apply BitVec.eq_of_toNat_eq
  rw [rxPktsts, extractLsb'_toNat_div, rxStatusWord_toNat]
  omega

@[simp] theorem rxFrmnum_rxStatusWord : rxFrmnum (rxStatusWord epnum bcnt dpid kind frm) = frm := by
  apply BitVec.eq_of_toNat_eq
  rw [rxFrmnum, extractLsb'_toNat_div, rxStatusWord_toNat]
  omega

end RxFields

/-- A well-formed primitive is read back with its argument words, which hold its byte count (log 15). -/
theorem decodePrimitive_encode {i : Instr} (hi : i.space = .primitive) (hwf : i.wellFormed = true) (rest : List Word) :
    decodePrimitive (encode i ++ rest) = .ok i := by
  have hmax : maxPacketBytes = 2047 := rfl
  cases i
  case readPacket dst size =>
    simp only [Instr.wellFormed, Bool.and_eq_true, decide_eq_true_eq] at hwf
    have hsize : size < 4294967296 := by omega
    simpa [encode, decodePrimitive, Laws.opField_commandWord] using hsize
  case writePacket e src size =>
    simp only [Instr.wellFormed, Bool.and_eq_true, decide_eq_true_eq] at hwf
    simpa [encode, decodePrimitive, Laws.opField_commandWord] using hwf.1
  case dumpPacket size =>
    simp only [Instr.wellFormed, decide_eq_true_eq] at hwf
    have hsize : size < 4294967296 := by omega
    simpa [encode, decodePrimitive, Laws.opField_commandWord] using hsize
  all_goals cases hi

/-- Every decoder inverts the encoder on the well-formed instructions of its space. -/
theorem decodeIn_encode {i : Instr} (hwf : i.wellFormed = true) (rest : List Word) :
    decodeIn i.space (encode i ++ rest) = .ok i := by
  have hport : i.space = .port → decodeCommand (encode i ++ rest) = .ok i := fun hi => decodeCommand_encode hi rest
  cases i with
  | init | connect | disconnect | setRxFifoSize | setTxFifoSize | configureInEp | configureOutEp | inTransfer
  | outTransfer | setupTransfer | setDeviceAddress | stallInEp | stallOutEp | disableInEp | disableOutEp =>
    exact hport rfl
  | readPacket | writePacket | dumpPacket => exact decodePrimitive_encode (by rfl) hwf rest
  | svcUsbrst | svcEnumdne | svcRxflvl | svcIepint | svcOepint | svcIisoixfr | svcIpxfr | svcWkupint => rfl
  | rxGlobalOutNak => simp [encode, Instr.space, decodeIn, onFirstWord, decodeRx, kindGlobalOutNak, rxBcnt_rxStatusWord]
  | rxOutData => simp [encode, Instr.space, decodeIn, onFirstWord, decodeRx, kindOutData, rxBcnt_rxStatusWord]
  | rxOutXferDone => simp [encode, Instr.space, decodeIn, onFirstWord, decodeRx, kindOutXferDone, rxBcnt_rxStatusWord]
  | rxSetupDone => simp [encode, Instr.space, decodeIn, onFirstWord, decodeRx, kindSetupDone, rxBcnt_rxStatusWord]
  | rxSetupData => simp [encode, Instr.space, decodeIn, onFirstWord, decodeRx, kindSetupData, rxBcnt_rxStatusWord]
  | iepXfrc | iepTxfe | oepXfrc | oepStup => rfl

/-- Settles O3: what the port reads from an encoding is the command, the other decoders find the fields where the
encoder put them, and the words taken are counted by OP. -/
theorem encodeDecodeRoundTrip : Obligations.EncodeDecodeRoundTrip := by
  unfold Obligations.EncodeDecodeRoundTrip
  intro i rest hwf
  exact ⟨decodeIn_encode hwf rest, fun hi => dropCommand_encode hi rest⟩

/-- What the port reads is well formed: the operand types bound every field of a command. -/
theorem Reads.wellFormed {w : Word} {rest : List Word} {i : Instr} (h : Reads w rest i) : i.wellFormed = true := by
  cases h <;> rfl

/-- Settles O4: what the port reads, it reads where the must-be-zero bits are 0, and then the encoding is the words. -/
theorem decodedCommandReencodes : Obligations.DecodedCommandReencodes := by
  unfold Obligations.DecodedCommandReencodes
  intro ws i h
  cases ws with
  | nil => cases h
  | cons w rest =>
    obtain ⟨hread, hzero⟩ := decodeCommand_eq_ok_iff_reads.1 h
    exact ⟨hread.wellFormed, decodeCommand_port h, hread.zeros_iff.1 hzero⟩

/-! ## The match and mask table (30_encoding R75) -/

/-- A command's OP with its operand words is read as some command. -/
theorem reads_total {w : Word} {rest : List Word} (hop : 1 ≤ (opField w).toNat ∧ (opField w).toNat ≤ 15)
    (hrest : 2 ≤ rest.length) : ∃ i, Reads w rest i := by
  obtain ⟨buf, tmo, more, rfl⟩ : ∃ buf tmo more, rest = buf :: tmo :: more := by
    match rest, hrest with
    | buf :: tmo :: more, _ => exact ⟨buf, tmo, more, rfl⟩
  have hcmd : ∃ i, commandOf w (buf :: tmo :: more) = .ok i := by
    unfold commandOf
    generalize (opField w).toNat = op at hop
    obtain ⟨hlo, hhi⟩ := hop
    interval_cases op <;> exact ⟨_, rfl⟩
  exact hcmd.imp fun i hi => commandOf_eq_ok_iff.1 hi

/-- The table is the model's own match and mask of each command's OP. -/
theorem commandRows_eq : commandRows = (List.range' 1 15).map fun op => (op, commandMatch op, commandMask op) := rfl

/-- Settles O5: a word matches a row exactly when it has the row's OP and its zeros, which is when the port reads it. -/
theorem commandsMatchTheMaskTable : Obligations.CommandsMatchTheMaskTable := by
  unfold Obligations.CommandsMatchTheMaskTable
  simp only [commandRows_eq, List.forall_mem_map, List.mem_range'_1]
  refine ⟨fun op hop w buf tmo => ?_, fun op₁ hop₁ op₂ hop₂ w h₁ h₂ => ?_⟩
  · have hlt : op % 2 ^ 5 = op := Nat.mod_eq_of_lt (by omega)
    rw [and_commandMask_eq_match_iff (by omega)]
    constructor
    · intro ⟨i, hi, hiop⟩
      obtain ⟨hcmd, hzero, hof⟩ := decodeCommand_eq_ok_iff.1 hi
      have heq : opField w = BitVec.ofNat 5 op := by
        rw [(commandOf_eq_ok_iff.1 hof).op] at hiop
        exact Option.some.inj hiop
      have hopw : (opField w).toNat = op := by rw [heq, BitVec.toNat_ofNat, hlt]
      exact ⟨hopw, hopw ▸ hzero⟩
    · intro ⟨hopw, hzero⟩
      have hcmd : 1 ≤ (opField w).toNat ∧ (opField w).toNat ≤ 15 := by omega
      obtain ⟨i, hread⟩ := reads_total (rest := [buf, tmo]) hcmd (by simp)
      refine ⟨i, decodeCommand_eq_ok_iff.2 ⟨hcmd, hopw ▸ hzero, commandOf_eq_ok_iff.2 hread⟩, ?_⟩
      rw [hread.op, ← hopw, BitVec.ofNat_toNat, BitVec.setWidth_eq]
  · have hop : op₁ = op₂ :=
      ((and_commandMask_eq_match_iff (by omega) w).1 h₁).1.symm.trans
        ((and_commandMask_eq_match_iff (by omega) w).1 h₂).1
    rw [hop]

/-! ## Refusals of the port (30_encoding R76) -/

/-- A word that the port refuses by a name of R76 leaves what `refuse` leaves of the state that the turn hands on. -/
theorem step_of_rejected {s : State} {j : Nat} {k : Task} {r : DecodeRefusal} {reason : RefuseReason}
    (hm : (nextTurn s).move = .task j) (hk : s.tasks[j]? = some k) (hp : k.phase = .ready)
    (hr : decodeCommand (commandWords k) = .error r) (hreason : portRefusal r = some reason) :
    step s = .next (refuse reason (taskState j s)) := by
  rw [step_of_task hm hk]
  simp only [taskTurn, hp, runCommand, hr, rejectWord, hreason]

/-- Settles O6: OP decides among the refusals, then the must-be-zero bits; the step refuses by that name. -/
theorem portRefusesThreeKinds : Obligations.PortRefusesThreeKinds := by
  unfold Obligations.PortRefusesThreeKinds
  refine ⟨fun w rest => ?_, fun s j k r reason hm hk hp hr hreason => ?_⟩
  · rw [← opField_toNat]
    refine ⟨decodeCommand_of_reservedOp rest, fun hlo hhi => decodeCommand_of_internalOp rest ⟨hlo, hhi⟩,
      ?nonZero, ?decodes⟩
    case nonZero =>
      intro hlo hhi hzero
      rw [decodeCommand_of_commandOp rest ⟨hlo, hhi⟩, if_neg hzero]
    case decodes =>
      intro hlo hhi hzero hrest
      obtain ⟨i, hread⟩ := reads_total ⟨hlo, hhi⟩ hrest
      exact ⟨i, decodeCommand_eq_ok_iff.2 ⟨⟨hlo, hhi⟩, hzero, commandOf_eq_ok_iff.2 hread⟩⟩
  · have hport : portRefusal r = some reason := by
      obtain ⟨rfl, rfl⟩ | ⟨rfl, rfl⟩ | ⟨rfl, rfl⟩ := hreason <;> rfl
    refine ⟨_, step_of_rejected hm hk hp hr hport, refuse_refused .., refuse_refusedBy .., ?_⟩
    exact ((taskState_grows j s).trans (refuse_grows reason _)).only.mono (by decide)

/-! ## Length and operands (30_encoding R72, R73) -/

/-- Settles O7: OP counts the words, and each operand is the field that the port reads. -/
theorem commandLengthAndOperands : Obligations.CommandLengthAndOperands := by
  unfold Obligations.CommandLengthAndOperands
  refine ⟨fun w rest => ?_, fun w buf tmo rest i h => ?_⟩
  · simp only [dropCommand_cons, opField_eq_iff]
    rfl
  · obtain ⟨hread, -⟩ := decodeCommand_eq_ok_iff_reads.1 h
    have hep := epField_val w
    have hwords := wordsField_toNat w
    have hsize := sizeField_toNat w
    have htype : (EpType.ofCode (tyField w)).code.toNat = w.toNat / 2 ^ 22 % 2 ^ 2 := by
      rw [EpType.code_ofCode, tyField_toNat]
    cases hread with
    | init | connect | disconnect => trivial
    | setRxFifoSize => exact hwords
    | setTxFifoSize => exact ⟨hep, hwords⟩
    | configureInEp | configureOutEp => exact ⟨hep, htype, mpsFieldOf_toNat w⟩
    | inTransfer _ hr | outTransfer _ hr | setupTransfer _ hr => cases hr; exact ⟨hep, hsize, rfl, rfl⟩
    | setDeviceAddress => exact addrField_toNat w
    | stallInEp | stallOutEp | disableInEp | disableOutEp => exact hep

/-! ## Endpoint 0's size codes (30_encoding R80) -/

theorem mpsCode_eq_some_iff (n : Nat) (c : BitVec 2) : mpsCode n = some c ↔
    (n = 8 ∧ c = 3) ∨ (n = 16 ∧ c = 2) ∨ (n = 32 ∧ c = 1) ∨ (n = 64 ∧ c = 0) := by
  constructor
  · intro h
    unfold mpsCode at h
    split_ifs at h with h8 h16 h32 h64
    · cases h; exact .inl ⟨h8, rfl⟩
    · cases h; exact .inr (.inl ⟨h16, rfl⟩)
    · cases h; exact .inr (.inr (.inl ⟨h32, rfl⟩))
    · cases h; exact .inr (.inr (.inr ⟨h64, rfl⟩))
  · rintro (⟨rfl, rfl⟩ | ⟨rfl, rfl⟩ | ⟨rfl, rfl⟩ | ⟨rfl, rfl⟩) <;> rfl

/-- Settles O10: the four codes, and what `mpsizFor` answers at endpoint 0 and elsewhere. -/
theorem maxPacketSizeCodes : Obligations.MaxPacketSizeCodes := by
  unfold Obligations.MaxPacketSizeCodes
  refine ⟨mpsCode_eq_some_iff, ?list, ?raw, ?configure, ?inverse⟩
  case list =>
    intro v
    have hcode : ∀ c : BitVec 2, [64, 32, 16, 8][c.toNat]? = some (mpsOfCode c) := by decide
    simpa [mpsDecode] using hcode (v.setWidth 2)
  case raw => exact fun e v he => if_neg he
  case configure =>
    intro cfg e ty mps v h
    unfold mpsizFor at h
    split at h
    · next he =>
      split at h
      · cases h
      split at h
      · cases h
      split at h
      · next c hc => cases h; simp [he, hc]
      · cases h
    · next he =>
      split at h
      · cases h
      · cases h; simp [he]
  case inverse =>
    intro n c h
    obtain ⟨rfl, rfl⟩ | ⟨rfl, rfl⟩ | ⟨rfl, rfl⟩ | ⟨rfl, rfl⟩ := (mpsCode_eq_some_iff n c).1 h <;> rfl

end Sys2Proof.Machine

/-! SUPPORT. Proof of the statement about the register words (30_encoding R84, R86, R87): a field is read at its own bits
and reads 0 elsewhere, so a word that is an "or" of fields gives each of them back. -/

namespace Sys2Proof.Machine

/-! ## Reading a field or a flag of a register word -/

@[simp] theorem fieldAt_getElem {n : Nat} (v : BitVec n) (lo : Nat) {j : Nat} (hj : j < 32) :
    (fieldAt v lo)[j] = (decide (lo ≤ j) && v.getLsbD (j - lo)) := by
  rw [← BitVec.getLsbD_eq_getElem, fieldAt_getLsbD]
  simp [hj]

@[simp] theorem flagAt_getElem (b : Bool) {k j : Nat} (hj : j < 32) : (flagAt b k)[j] = (b && decide (j = k)) := by
  rw [← BitVec.getLsbD_eq_getElem, flagAt_getLsbD]
  by_cases h : j = k
  · subst h; simp [hj]
  · simp [h]

/-- A field is read at its own bits. -/
@[simp] theorem extractLsb_fieldAt_self {n : Nat} (v : BitVec n) {lo hi : Nat} (hlo : lo ≤ hi) (hhi : hi < 32) :
    (fieldAt v lo).extractLsb hi lo = v.setWidth (hi - lo + 1) := by
  apply BitVec.eq_of_getLsbD_eq
  intro j hj
  have hlt : lo + j < 32 := by omega
  rw [BitVec.getLsbD_extractLsb, fieldAt_getLsbD, BitVec.getLsbD_setWidth]
  simp [hj, hlt]

/-- A field reads 0 at bits that it does not take. -/
@[simp] theorem extractLsb_fieldAt_of_disjoint {n : Nat} (v : BitVec n) {lo hi k : Nat} (hlo : lo ≤ hi)
    (h : hi < k ∨ k + n ≤ lo) : (fieldAt v k).extractLsb hi lo = 0 := by
  apply BitVec.eq_of_getLsbD_eq
  intro j hj
  rw [BitVec.getLsbD_extractLsb, fieldAt_getLsbD]
  obtain hbelow | habove := h
  · have hk : ¬ k ≤ lo + j := by omega
    simp [hk]
  · simp [BitVec.getLsbD_of_ge v (lo + j - k) (by omega)]

@[simp] theorem extractLsb_flagAt_of_disjoint (b : Bool) {lo hi k : Nat} (hlo : lo ≤ hi) (h : hi < k ∨ k < lo) :
    (flagAt b k).extractLsb hi lo = 0 := by
  apply BitVec.eq_of_getLsbD_eq
  intro j hj
  have hk : lo + j ≠ k := by omega
  rw [BitVec.getLsbD_extractLsb, flagAt_getLsbD]
  simp [hk]

/-- The low bits of a field. -/
theorem setWidth_eq_extractLsb {n : Nat} (v : BitVec n) (hi : Nat) : v.setWidth (hi - 0 + 1) = v.extractLsb hi 0 :=
  BitVec.eq_of_toNat_eq (by simp)

theorem foldl_or_getLsbD {α : Type} (f : α → Word) (as : List α) (w : Word) (j : Nat) :
    (as.foldl (fun acc a => acc ||| f a) w).getLsbD j = (w.getLsbD j || as.any fun a => (f a).getLsbD j) := by
  induction as generalizing w with
  | nil => simp
  | cons a as ih => simp [ih, Bool.or_assoc]

/-- The flag of endpoint e stands e bits above the first. -/
theorem epFlagsAt_getLsbD_iff (t : PerEp Bool) {lo : Nat} (hlo : lo + 8 ≤ 32) (j : Nat) :
    (epFlagsAt t lo).getLsbD j = true ↔ ∃ e : Ep, j = lo + e.val ∧ t.get e = true := by
  have hnone : (0 : Word).getLsbD j = false := BitVec.getLsbD_zero
  simp only [epFlagsAt, foldl_or_getLsbD, hnone, Bool.false_or, List.any_eq_true, mem_allEps, true_and]
  exact exists_congr fun e => flagAt_getLsbD_iff _ (by omega) j

theorem epFlagsAt_getLsbD_self (t : PerEp Bool) {lo : Nat} (hlo : lo + 8 ≤ 32) (e : Ep) :
    (epFlagsAt t lo).getLsbD (lo + e.val) = t.get e := by
  rw [Bool.eq_iff_iff, epFlagsAt_getLsbD_iff t hlo]
  constructor
  · intro ⟨k, hk, ht⟩
    have hek : e = k := Fin.ext (by omega)
    exact hek ▸ ht
  · exact fun ht => ⟨e, rfl, ht⟩

theorem epFlagsAt_getLsbD_of_outside (t : PerEp Bool) {lo j : Nat} (hlo : lo + 8 ≤ 32) (h : j < lo ∨ lo + 8 ≤ j) :
    (epFlagsAt t lo).getLsbD j = false := by
  rw [Bool.eq_false_iff, ne_eq, epFlagsAt_getLsbD_iff t hlo]
  rintro ⟨e, he, -⟩
  omega

/-! ## The layouts of the endpoint registers (30_encoding R87) -/

theorem diepctl_fields (b : InBank) (e : Ep) : (e ≠ 0 → (diepctl b e).extractLsb 10 0 = b.mpsiz) ∧
    (e = 0 → (diepctl b e).extractLsb 1 0 = b.mpsiz.extractLsb 1 0) ∧ (diepctl b e).getLsbD 15 = b.usbaep ∧
    (diepctl b e).getLsbD 17 = b.nak ∧ (diepctl b e).extractLsb 19 18 = b.eptyp.code ∧
    (diepctl b e).getLsbD 21 = b.stall ∧ (diepctl b e).extractLsb 25 22 = b.txfnum ∧
    (diepctl b e).getLsbD 31 = b.epena := by
  by_cases he : e = 0
  · simp [he, diepctl, BitVec.extractLsb_or, ← setWidth_eq_extractLsb]
  · simp [he, diepctl, BitVec.extractLsb_or]

theorem doepctl_fields (b : OutBank) (e : Ep) : (e ≠ 0 → (doepctl b e).extractLsb 10 0 = b.mpsiz) ∧
    (e = 0 → (doepctl b e).extractLsb 1 0 = b.mpsiz.extractLsb 1 0) ∧ (doepctl b e).getLsbD 15 = b.usbaep ∧
    (doepctl b e).getLsbD 17 = b.nak ∧ (doepctl b e).extractLsb 19 18 = b.eptyp.code ∧
    (doepctl b e).getLsbD 21 = b.stall ∧ (doepctl b e).getLsbD 31 = b.epena := by
  by_cases he : e = 0
  · simp [he, doepctl, BitVec.extractLsb_or, ← setWidth_eq_extractLsb]
  · simp [he, doepctl, BitVec.extractLsb_or]

theorem dieptsiz_fields (b : InBank) (e : Ep) :
    (e ≠ 0 → (dieptsiz b e).extractLsb 18 0 = b.xfrsiz ∧ (dieptsiz b e).extractLsb 28 19 = b.pktcnt ∧
      (dieptsiz b e).extractLsb 30 29 = b.mcnt) ∧
    (e = 0 → (dieptsiz b e).extractLsb 6 0 = b.xfrsiz.extractLsb 6 0 ∧
      (dieptsiz b e).extractLsb 20 19 = b.pktcnt.extractLsb 1 0) := by
  by_cases he : e = 0
  · simp [he, dieptsiz, BitVec.extractLsb_or, ← setWidth_eq_extractLsb]
  · simp [he, dieptsiz, BitVec.extractLsb_or]

theorem doeptsiz_fields (b : OutBank) (e : Ep) : (doeptsiz b e).extractLsb 30 29 = b.stupcnt ∧
    (e ≠ 0 → (doeptsiz b e).extractLsb 18 0 = b.xfrsiz ∧ (doeptsiz b e).extractLsb 28 19 = b.pktcnt) ∧
    (e = 0 → (doeptsiz b e).extractLsb 6 0 = b.xfrsiz.extractLsb 6 0 ∧
      (doeptsiz b e).getLsbD 19 = b.pktcnt.getLsbD 0) := by
  by_cases he : e = 0
  · simp [he, doeptsiz, BitVec.extractLsb_or, ← setWidth_eq_extractLsb]
  · simp [he, doeptsiz, BitVec.extractLsb_or]

/-! ## The other registers (30_encoding R84, R86, R87) -/

theorem diepint_fields (s : State) (e : Ep) : (diepint s e).getLsbD 0 = (s.iep.get e).xfrc ∧
    ((diepint s e).getLsbD 7 = true ↔ s.txq.get e = []) := by
  simp [diepint, xfrcBit, txfeBit, txfe]

theorem doepint_fields (s : State) (e : Ep) : (doepint s e).getLsbD 0 = (s.oep.get e).xfrc ∧
    (doepint s e).getLsbD 3 = (s.oep.get e).stup := by
  simp [doepint, xfrcBit, stupBit]

/-- INEPTFSAV holds the words free, which a depth of 16 bits bounds. -/
theorem dtxfsts_field (s : State) (e : Ep) : ((BitVec.ofNat 32 (txAvailWords s e)).extractLsb 15 0).toNat =
    (s.core.txfd.get e).toNat - (s.txq.get e).length := by
  have hdepth : (s.core.txfd.get e).toNat < 2 ^ 16 := (s.core.txfd.get e).isLt
  simp only [BitVec.extractLsb_toNat, BitVec.toNat_ofNat, txAvailWords, Nat.shiftRight_zero]
  omega

theorem dieptxf_fields (start depth : BitVec 16) :
    (fieldAt start 0 ||| fieldAt depth 16).extractLsb 15 0 = start ∧
    (fieldAt start 0 ||| fieldAt depth 16).extractLsb 31 16 = depth := by
  simp [BitVec.extractLsb_or]

/-- DAINTMSK: the IN masks below the OUT masks. -/
theorem daintmsk_fields (t u : PerEp Bool) (e : Ep) :
    (epFlagsAt t 0 ||| epFlagsAt u 16).getLsbD e.val = t.get e ∧
    (epFlagsAt t 0 ||| epFlagsAt u 16).getLsbD (16 + e.val) = u.get e := by
  have hin := epFlagsAt_getLsbD_self t (lo := 0) (by decide) e
  have hout := epFlagsAt_getLsbD_self u (lo := 16) (by decide) e
  rw [Nat.zero_add] at hin
  rw [BitVec.getLsbD_or, BitVec.getLsbD_or, hin, hout,
    epFlagsAt_getLsbD_of_outside u (by decide) (.inl (by omega)),
    epFlagsAt_getLsbD_of_outside t (by decide) (.inr (by omega)), Bool.or_false, Bool.false_or]
  exact ⟨rfl, rfl⟩

theorem diepempmsk_field (t : PerEp Bool) (e : Ep) : (epFlagsAt t 0).getLsbD e.val = t.get e := by
  have h := epFlagsAt_getLsbD_self t (lo := 0) (by decide) e
  rwa [Nat.zero_add] at h

theorem gusbcfg_fields (physel fdmod : Bool) (trdt : BitVec 4) :
    let w := flagAt physel 6 ||| fieldAt trdt 10 ||| flagAt fdmod 30
    w.getLsbD 6 = physel ∧ w.extractLsb 13 10 = trdt ∧ w.getLsbD 30 = fdmod := by
  simp [BitVec.extractLsb_or]

theorem dcfg_fields (dspd : BitVec 2) (dad : BitVec 7) :
    (fieldAt dspd 0 ||| fieldAt dad 4).extractLsb 1 0 = dspd ∧
    (fieldAt dspd 0 ||| fieldAt dad 4).extractLsb 10 4 = dad := by
  simp [BitVec.extractLsb_or]

theorem dctl_fields (c : CoreRegs) : (dctl c).getLsbD 1 = c.sdis ∧ (dctl c).getLsbD 2 = c.ginnak := by
  simp [dctl]

/-! ## Command bits (30_encoding R86, R87) -/

/-- CNAK and SNAK write NAK of their endpoint and direction, which the control register shows. -/
theorem act_nak (dir : Dir) (e : Ep) (v : Bool) (s : State) :
    ∃ t, CommandBit.act (if v = true then .snak dir e else .cnak dir e) s = some t ∧
      (∃ w, regWord t (ctlReg dir e) = some w ∧ w.getLsbD 17 = v) ∧
      (dir = .inn → t.iep.get e = { s.iep.get e with nak := v } ∧ SameBut e s.iep t.iep ∧ OnlyChanges [.iep] s t) ∧
      (dir = .out → t.oep.get e = { s.oep.get e with nak := v } ∧ SameBut e s.oep t.oep ∧ OnlyChanges [.oep] s t) := by
  refine ⟨writeNak dir e v s, by cases v <;> rfl, ?_⟩
  cases dir with
  | inn =>
    obtain ⟨-, -, -, hnak, -⟩ := diepctl_fields { s.iep.get e with nak := v } e
    refine ⟨⟨_, rfl, by simpa [writeNak] using hnak⟩, fun _ => ⟨by simp [writeNak], ?_, ?_⟩, nofun⟩
    · exact s.iep.sameBut_set e _
    · exact (setIep_grows e _ s).only
  | out =>
    obtain ⟨-, -, -, hnak, -⟩ := doepctl_fields { s.oep.get e with nak := v } e
    refine ⟨⟨_, rfl, by simpa [writeNak] using hnak⟩, nofun, fun _ => ⟨by simp [writeNak], ?_, ?_⟩⟩
    · exact s.oep.sameBut_set e _
    · exact (setOep_grows e _ s).only

/-- SGINAK and CGINAK write GINNAK. -/
theorem act_ginnak (v : Bool) (s : State) : ∃ t, CommandBit.act (if v = true then .sginak else .cginak) s = some t ∧
    t.core = { s.core with ginnak := v } ∧ OnlyChanges [.core] s t :=
  ⟨s.setCore { s.core with ginnak := v }, by cases v <;> rfl, rfl, (setCore_grows _ s).only⟩

theorem flushTx_all_only (s : State) : OnlyChanges [.txq] s (flushTx 0x10 s) :=
  fun p hp => by cases p <;> simp_all [Same, flushTx, txfnumAll]

/-- TXFNUM stands beside TXFFLSH. -/
theorem txfflsh_word_toNat (n : BitVec 5) : (CommandBit.txfflsh n).word.toNat = 2 ^ 5 + n.toNat * 2 ^ 6 := by
  revert n; decide

/-- Settles O12: each register is an "or" of fields at their places, and a command bit is an update of the field it
names. -/
theorem registerWordsHoldTheirFields : Obligations.RegisterWordsHoldTheirFields := by
  unfold Obligations.RegisterWordsHoldTheirFields
  intro s e
  refine ⟨⟨_, rfl, diepctl_fields _ e⟩, ⟨_, rfl, doepctl_fields _ e⟩, ⟨_, rfl, dieptsiz_fields _ e⟩,
    ⟨_, rfl, doeptsiz_fields _ e⟩, ⟨_, rfl, diepint_fields s e⟩, ⟨_, rfl, doepint_fields s e⟩,
    ⟨_, rfl, dtxfsts_field s e⟩, ⟨_, rfl, dieptxf_fields _ _⟩, ⟨_, rfl, daintmsk_fields _ _ e⟩,
    ⟨_, rfl, diepempmsk_field _ e⟩, ⟨_, rfl, gusbcfg_fields _ _ _⟩, ⟨_, rfl, ?gahbcfg⟩, ⟨_, rfl, ?grxfsiz⟩,
    ⟨_, rfl, dcfg_fields _ _⟩, ⟨_, rfl, dctl_fields _⟩, ⟨_, rfl, ?diepmsk⟩, ⟨_, rfl, ?doepmsk⟩, ⟨_, rfl, ?pcgcctl⟩,
    fun dir v => act_nak dir e v s, fun v => act_ginnak v s, ?rxfflsh, ?flushAll, ?flushOne,
    fun dir => ⟨rfl, rfl, rfl, rfl, rfl, rfl⟩, rfl, rfl, rfl, rfl, rfl, rfl, rfl, rfl, rfl, rfl,
    fun n => ⟨rfl, txfflsh_word_toNat n⟩⟩
  case gahbcfg | grxfsiz | diepmsk | doepmsk | pcgcctl => simp
  case rxfflsh => exact ⟨_, rfl, rfl, (setRxq_grows [] s).only⟩
  case flushAll => exact ⟨_, rfl, PerEp.get_all [], flushTx_all_only s⟩
  case flushOne =>
    refine ⟨s.setTxq e [], congrArg some (flushTx_ep e s), by simp, ?_, (setTxq_grows e [] s).only⟩
    exact s.txq.sameBut_set e []

end Sys2Proof.Machine

/-! SUPPORT. Proofs of the statements about FIFO marshaling (40_fifo_marshaling R92 to R94): the memory after the first
bytes of words are written, and the two outcomes of a read, a dump and a write. -/

namespace Sys2Proof.Machine

/-! ## Words written to memory -/

/-- The word that holds a packet's byte is one of the packet's words (40_fifo_marshaling R91). -/
theorem div_four_lt_wordsFor {n size : Nat} (h : n < size) : n / 4 < wordsFor size := by
  have := wordsFor_le_iff size (n / 4)
  omega

section WrittenWords

variable {space a size : Nat} {m : Memory} {ws : List Word} (hm : m.wf space = true) (h : a + size ≤ space)
include hm h

/-- A byte of words written from `a` on reads as its byte of its word, little-endian (20_memory R53, R56). -/
theorem Memory.readByte_writeBytes_unpackWords {n : Nat} {w : Word} (hn : n < size) (hw : ws[n / 4]? = some w) :
    (m.writeBytes a ((unpackWords ws).take size)).readByte (a + n) = byteAt w (n % 4) := by
  have hbyte : ((unpackWords ws).take size)[n]? = some (byteAt w (n % 4)) := by
    rw [List.getElem?_take_of_lt hn, unpackWords_getElem?, hw, Option.map_some]
  have hlen : n < ((unpackWords ws).take size).length := (List.getElem?_eq_some_iff.1 hbyte).1
  rw [Memory.readByte_writeBytes_of_inside hm (by rw [List.length_take]; omega) hlen]
  exact (List.getElem?_eq_some_iff.1 hbyte).2

/-- Writing the first `size` bytes of words changes no byte past the words or past `size`. -/
theorem Memory.readByte_writeBytes_unpackWords_of_outside {j : Nat} (hj : j < a ∨ a + min size (4 * ws.length) ≤ j) :
    (m.writeBytes a ((unpackWords ws).take size)).readByte j = m.readByte j := by
  have hlen : ((unpackWords ws).take size).length = min size (4 * ws.length) := by simp
  exact Memory.readByte_writeBytes_of_outside hm (by omega) (by omega)

end WrittenWords

theorem setRxq_setMem_only (m : Memory) (q : List Word) (s : State) :
    OnlyChanges [.rxq, .mem] s ((s.setMem m).setRxq q) :=
  ((setMem_grows m s).trans (setRxq_grows q _)).only.mono (by decide)

/-! ## The commands -/

/-- READ_PACKET (40_fifo_marshaling R92). -/
theorem exec_readPacket (dst : Word) (size : Nat) (s : State) :
    exec (.readPacket dst size) s = (readPacket dst.toNat size s).outcome := by
  rfl

/-- DUMP_PACKET (40_fifo_marshaling R94). -/
theorem exec_dumpPacket (size : Nat) (s : State) : exec (.dumpPacket size) s = (dumpPacket size s).outcome := by
  rfl

theorem exec_writePacket_ok {e : Ep} {src : Word} {size n : Nat} {s t : State}
    (h : writePacket e src.toNat size s = .ok (n, t)) : exec (.writePacket e src size) s = .next t := by
  change execWritePacket e src size s = .next t
  rw [execWritePacket, h]

theorem exec_writePacket_error {e : Ep} {src : Word} {size : Nat} {s : State} {f : Fault}
    (h : writePacket e src.toNat size s = .error f) : exec (.writePacket e src size) s = .fault f := by
  change execWritePacket e src size s = .fault f
  rw [execWritePacket, h]

/-- The count is the smaller of the size and the bytes available (40_fifo_marshaling R93). -/
theorem writeCount_eq (s : State) (e : Ep) (size : Nat) :
    writeCount s e size = min size (4 * ((s.core.txfd.get e).toNat - (s.txq.get e).length)) := by
  rfl

/-! ## The statements -/

/-- Settles O28: the three outcomes of a read and the two of a dump; the memory is that of the popped words' first `size`
bytes. -/
theorem readAndDumpPacketEffect : Obligations.ReadAndDumpPacketEffect := by
  unfold Obligations.ReadAndDumpPacketEffect
  refine ⟨fun dst size s hm => ?read, fun size s => ?dump⟩
  case read =>
    simp only [exec_readPacket]
    obtain ⟨hout, hr⟩ | ⟨hin, hk, hr⟩ | ⟨hin, hk, hr⟩ := readPacket_cases dst.toNat size s <;> rw [hr]
    · exact ⟨fun _ => by omega, fun _ => by omega, fun _ => rfl⟩
    · refine ⟨fun _ _ => ⟨_, rfl, rfl, fun n hn w hw => ?bytes, fun j hj => ?outside, setRxq_setMem_only _ _ s⟩,
        fun _ _ => by omega, fun _ => by omega⟩
      case bytes =>
        refine Memory.readByte_writeBytes_unpackWords hm hin hn ?_
        rwa [List.getElem?_take_of_lt (div_four_lt_wordsFor hn)]
      case outside => exact Memory.readByte_writeBytes_unpackWords_of_outside hm hin (by omega)
    · refine ⟨fun _ _ => by omega, fun _ _ => ⟨_, rfl, rfl, raise_fault _ _, fun n hn w hw => ?bytes, fun j hj => ?outside,
        ?frame⟩, fun _ => by omega⟩
      case bytes => exact Memory.readByte_writeBytes_unpackWords hm hin hn hw
      case outside => exact Memory.readByte_writeBytes_unpackWords_of_outside hm hin hj
      case frame => exact ((setRxq_setMem_only _ _ s).mono (by decide)).trans ((raise_only _ _).2.mono (by decide))
  case dump =>
    simp only [exec_dumpPacket]
    obtain ⟨hk, hd⟩ | ⟨hk, hd⟩ := dumpPacket_cases size s <;> rw [hd]
    · exact ⟨fun _ => ⟨_, rfl, rfl, (setRxq_grows _ s).only⟩, fun _ => by omega⟩
    · exact ⟨fun _ => by omega,
        fun _ => ⟨_, rfl, rfl, raise_fault _ _, ((setRxq_grows _ s).trans (raise_grows _ _)).only⟩⟩

/-- Settles O29: the push is the packed bytes read from `src` on, as many as `writeCount` says. -/
theorem writePacketEffect : Obligations.WritePacketEffect := by
  unfold Obligations.WritePacketEffect
  intro e src size s
  simp only [← writeCount_eq]
  obtain ⟨hin, hw⟩ | ⟨hout, hw⟩ := writePacket_cases e src.toNat size s
  · refine ⟨fun _ => ⟨_, _, exec_writePacket_ok hw, hw, s.txq.get_set_self e _, ?carries, ?others, (setTxq_grows e _ s).only⟩,
      fun _ => by omega⟩
    case carries =>
      exact carries_packBytes _ (Memory.readBytes_length _ _ _) fun i hi => Memory.readBytes_getElem _ _ _ i hi
    case others => exact s.txq.sameBut_set e _
  · exact ⟨fun _ => by omega, fun _ => exec_writePacket_error hw⟩

end Sys2Proof.Machine

/-! SUPPORT. The registers over one step (10_state R20 to R35, R46, R48, 41_endpoint_config R98): what the dispatcher, a
poll, a bus move and a command leave of the register mapper, of the mode bits and of endpoint 0's counts, and the clock. -/

namespace Sys2Proof.Machine

/-! ## Views of the registers -/

/-- The fields of an IN bank that the register mapper stores (41_endpoint_config R98). -/
def InBank.mapping (b : InBank) : Bool × EpType × BitVec 11 × BitVec 4 := (b.usbaep, b.eptyp, b.mpsiz, b.txfnum)

/-- The fields of an OUT bank that the register mapper stores (41_endpoint_config R98). -/
def OutBank.mapping (b : OutBank) : Bool × EpType × BitVec 11 := (b.usbaep, b.eptyp, b.mpsiz)

/-- The fields of an IN bank that only commands and the bus agent write: the mapping, XFRSIZ and PKTCNT. -/
def InBank.steady (b : InBank) : (Bool × EpType × BitVec 11 × BitVec 4) × BitVec 19 × BitVec 10 :=
  (b.mapping, b.xfrsiz, b.pktcnt)

/-- The fields of an OUT bank that only commands and the bus agent write. -/
def OutBank.steady (b : OutBank) : (Bool × EpType × BitVec 11) × BitVec 19 × BitVec 10 :=
  (b.mapping, b.xfrsiz, b.pktcnt)

/-- The mode bits that only `init` writes (10_state R20, R27, R30). -/
def CoreRegs.modes (c : CoreRegs) : Bool × Bool × BitVec 2 × Bool × Bool × Bool :=
  (c.physel, c.fdmod, c.dspd, c.diepmskXfrcm, c.doepmskXfrcm, c.doepmskStupm)

/-- `t` has the interrupt classes and the mode bits of `s`, its interrupt mask or the baseline's, and its banks look the
same through the views `f` and `g`. -/
structure KeepsRegs {α β : Type} (f : InBank → α) (g : OutBank → β) (s t : State) : Prop where
  cfg : t.cfg = s.cfg
  inited : t.inited = s.inited
  iepm : t.core.iepm = s.core.iepm
  oepm : t.core.oepm = s.core.oepm
  modes : t.core.modes = s.core.modes
  gintmsk : t.core.gintmsk = s.core.gintmsk ∨ t.core.gintmsk = gintmskBase
  iep : ∀ e, f (t.iep.get e) = f (s.iep.get e)
  oep : ∀ e, g (t.oep.get e) = g (s.oep.get e)

/-- A value written that looks the same changes no endpoint's look. -/
theorem PerEp.get_set_view {α β : Type} {f : α → β} {t : PerEp α} {e : Ep} {a : α} (h : f a = f (t.get e)) (k : Ep) :
    f ((t.set e a).get k) = f (t.get k) := by
  rw [PerEp.get_set]
  split
  · next hk => rw [hk, h]
  · rfl

section Views

variable {α β : Type} {f : InBank → α} {g : OutBank → β} {s t u : State}

theorem KeepsRegs.refl (s : State) : KeepsRegs f g s s :=
  ⟨rfl, rfl, rfl, rfl, rfl, .inl rfl, fun _ => rfl, fun _ => rfl⟩

theorem KeepsRegs.trans (h : KeepsRegs f g s t) (k : KeepsRegs f g t u) : KeepsRegs f g s u where
  cfg := k.cfg.trans h.cfg
  inited := k.inited.trans h.inited
  iepm := k.iepm.trans h.iepm
  oepm := k.oepm.trans h.oepm
  modes := k.modes.trans h.modes
  gintmsk := k.gintmsk.elim (fun hk => hk ▸ h.gintmsk) .inr
  iep e := (k.iep e).trans (h.iep e)
  oep e := (k.oep e).trans (h.oep e)

theorem KeepsRegs.of_grows {ps : List Part} (h : Grows ps s t)
    (hps : ∀ p ∈ [Part.inited, .core, .iep, .oep], p ∉ ps) : KeepsRegs f g s t := by
  have hinit : t.inited = s.inited := h.only .inited (hps .inited (by decide))
  have hcore : t.core = s.core := h.only .core (hps .core (by decide))
  have hiep : t.iep = s.iep := h.only .iep (hps .iep (by decide))
  have hoep : t.oep = s.oep := h.only .oep (hps .oep (by decide))
  exact ⟨h.sticky.cfg, hinit, by rw [hcore], by rw [hcore], by rw [hcore], .inl (by rw [hcore]),
    fun e => by rw [hiep], fun e => by rw [hoep]⟩

theorem KeepsRegs.followedBy {ps : List Part} (h : KeepsRegs f g s t) (k : Grows ps t u)
    (hps : ∀ p ∈ [Part.inited, .core, .iep, .oep], p ∉ ps) : KeepsRegs f g s u := h.trans (.of_grows k hps)

/-- A write of the controller-global registers that keeps the classes, the mode bits and the interrupt mask. -/
theorem KeepsRegs.setCore (h : KeepsRegs f g s t) {c : CoreRegs} (hiepm : c.iepm = t.core.iepm := by rfl)
    (hoepm : c.oepm = t.core.oepm := by rfl) (hmodes : c.modes = t.core.modes := by rfl)
    (hmsk : c.gintmsk = t.core.gintmsk := by rfl) : KeepsRegs f g s (t.setCore c) :=
  h.trans ⟨rfl, rfl, hiepm, hoepm, hmodes, .inl hmsk, fun _ => rfl, fun _ => rfl⟩

theorem KeepsRegs.setIep (h : KeepsRegs f g s t) {e : Ep} {b : InBank} (hb : f b = f (t.iep.get e) := by rfl) :
    KeepsRegs f g s (t.setIep e b) :=
  h.trans ⟨rfl, rfl, rfl, rfl, rfl, .inl rfl, PerEp.get_set_view hb, fun _ => rfl⟩

theorem KeepsRegs.setOep (h : KeepsRegs f g s t) {e : Ep} {b : OutBank} (hb : g b = g (t.oep.get e) := by rfl) :
    KeepsRegs f g s (t.setOep e b) :=
  h.trans ⟨rfl, rfl, rfl, rfl, rfl, .inl rfl, fun _ => rfl, PerEp.get_set_view hb⟩

theorem KeepsRegs.advance (h : KeepsRegs f g s t) : KeepsRegs f g s (advance t) :=
  h.followedBy (onCur_grows _ t) (by decide)

theorem KeepsRegs.wait (h : KeepsRegs f g s t) {dir : Dir} {e : Ep} {tmo : Word} :
    KeepsRegs f g s (wait dir e tmo t) := h.followedBy (onCur_grows _ t) (by decide)

end Views

/-- `t` keeps the registers of `s`, and its banks have the mapping, XFRSIZ and PKTCNT of `s`. -/
abbrev KeepsBanks (s t : State) : Prop := KeepsRegs InBank.steady OutBank.steady s t

/-- `t` keeps the registers of `s`, and its banks have the mapping of `s`. -/
abbrev KeepsMapping (s t : State) : Prop := KeepsRegs InBank.mapping OutBank.mapping s t

theorem KeepsRegs.mapping {s t : State} (h : KeepsBanks s t) : KeepsMapping s t :=
  { h with iep := fun e => congrArg Prod.fst (h.iep e), oep := fun e => congrArg Prod.fst (h.oep e) }

/-! ## The dispatcher keeps the banks (42_bus_event_handler R106 to R113) -/

theorem receiveService_keepsBanks (s : State) : (receiveService s).Within (KeepsBanks s) := by
  unfold receiveService
  split
  · exact .refl s
  next w q _ =>
  have hpop : KeepsBanks s (s.setRxq q) := .of_grows (setRxq_grows q s) (by decide)
  have hdump : ∀ {u} n, KeepsBanks s u → (dumpPacket n u).Within (KeepsBanks s) := fun {u} n hu =>
    (dumpPacket_grows n u).mono fun t ht => hu.followedBy ht (by decide)
  unfold receiveEntry receiveXferDone receiveSetupDone receiveOther popXferDone popSetupDone
  split
  · exact (receiveData_grows _ _ _).mono fun t ht => hpop.followedBy ht (by decide)
  split
  · split
    · exact hdump _ hpop.setOep
    · exact hdump _ hpop
  split
  · split
    · exact hdump _ hpop.setOep
    · exact hdump _ hpop
  · exact hdump _ hpop

theorem inXfrcEvent_keepsBanks (e : Ep) (s : State) : KeepsBanks s (inXfrcEvent e s) := by
  unfold inXfrcEvent
  split
  · exact (KeepsRegs.setIep (.refl s)).followedBy (setDin_grows e _ _) (by decide)
  · exact .refl s

theorem maskTxfe_keepsBanks (e : Ep) (s : State) : KeepsBanks s (maskTxfe e s) :=
  .setCore (.refl s)

theorem advanceDin_keepsBanks (e : Ep) (n : Nat) (s : State) : KeepsBanks s (advanceDin e n s) := by
  have hdin : ∀ d, KeepsBanks s (s.setDin e d) := fun d => .of_grows (setDin_grows e d s) (by decide)
  unfold advanceDin
  simp only
  split
  · exact (hdin _).trans (maskTxfe_keepsBanks e _)
  · exact hdin _

theorem inEndpoint_keepsBanks (e : Ep) (s : State) : (inEndpoint e s).Within (KeepsBanks s) := by
  unfold inEndpoint
  split
  · have hx := inXfrcEvent_keepsBanks e s
    obtain h | h | ⟨n, q, -, -, h⟩ | h := inTxfeEvent_cases e (inXfrcEvent e s) <;> rw [h]
    · exact hx
    · exact hx.trans (maskTxfe_keepsBanks e _)
    · exact (hx.followedBy (setTxq_grows e q _) (by decide)).trans (advanceDin_keepsBanks e n _)
    · trivial
  · exact .refl s

theorem outEndpoint_keepsBanks (old : OutBank) (e : Ep) (s : State) :
    (outEndpoint old e s).Within (KeepsBanks s) := by
  unfold outEndpoint outEvent
  split
  · exact (KeepsRegs.setOep (.refl s)).followedBy (setDout_grows e _ _) (by decide)
  · exact .refl s

/-- The Reset service writes the baseline mask, and of each bank only flags (42_bus_event_handler R106). -/
theorem busReset_keepsBanks (s : State) : KeepsBanks s (busReset s) where
  cfg := rfl
  inited := rfl
  iepm := rfl
  oepm := rfl
  modes := rfl
  gintmsk := .inr rfl
  iep e := by simp [busReset, InBank.steady, InBank.mapping]
  oep e := by simp [busReset, OutBank.steady, OutBank.mapping]

theorem isoIncomplete_keepsBanks (a b : Bool) (s : State) : KeepsBanks s (isoIncomplete a b s) :=
  (KeepsRegs.setCore (.refl s)).followedBy (emit_grows _ _) (by decide)

theorem enumDone_keepsBanks (s : State) : KeepsBanks s (enumDone s) :=
  ⟨rfl, rfl, rfl, rfl, rfl, .inl rfl, fun _ => rfl, fun _ => rfl⟩

theorem dispatch_keepsBanks (s : State) : (dispatch s).Within (KeepsBanks s) := by
  refine dispatch_within (P := KeepsBanks s) ?reset ?enum ?rx ?inn ?out ?iso ?wake (.refl s)
  case reset => exact fun u hu => hu.trans (busReset_keepsBanks u)
  case enum => exact fun u hu => hu.trans (enumDone_keepsBanks u)
  case rx => exact fun u hu => (receiveService_keepsBanks u).mono fun t ht => hu.trans ht
  case inn => exact fun e u hu => (inEndpoint_keepsBanks e u).mono fun t ht => hu.trans ht
  case out => exact fun old e u hu => (outEndpoint_keepsBanks old e u).mono fun t ht => hu.trans ht
  case iso => exact fun a b u hu => hu.trans (isoIncomplete_keepsBanks a b u)
  case wake => exact fun u hu => hu.setCore

/-! ## A poll keeps the banks (43_transfer_api R123, R124) -/

theorem timeoutRecover_keepsBanks (dir : Dir) (e : Ep) (s : State) : KeepsBanks s (timeoutRecover dir e s) := by
  cases dir with
  | inn => exact (KeepsRegs.setIep (.refl s)).followedBy (setTxq_grows e [] _) (by decide)
  | out => exact .setOep (.refl s)

theorem poll_keepsBanks (dir : Dir) (e : Ep) (t0 : Nat) (tmo : Word) (s : State) :
    KeepsBanks s (poll dir e t0 tmo s) := by
  have hend : ∀ v u, KeepsBanks u (endWait dir e v u) := fun v u => .of_grows (endWait_grows dir e v u) (by decide)
  obtain ⟨n, -, h⟩ | ⟨-, h⟩ | ⟨-, -, h⟩ | ⟨-, -, h⟩ := poll_cases dir e t0 tmo s <;> rw [h]
  · exact hend n s
  · exact hend codeReset s
  · exact (timeoutRecover_keepsBanks dir e s).trans (hend codeTimeout _)
  · exact .refl s

/-! ## A bus move keeps the mapping (45_bus_agent R138 to R145) -/

theorem busOut_keepsMapping (e : Ep) (data : List Byte) (dpid : BitVec 2) (frm : BitVec 4) (s : State) :
    KeepsMapping s (busOut e data dpid frm s) :=
  .setOep (.of_grows (setRxq_grows _ s) (by decide))

theorem busTake_keepsMapping (e : Ep) (s : State) : KeepsMapping s (busTake e s) := by
  have hbank : KeepsMapping s ((s.setTxq e ((s.txq.get e).drop (wordsFor (inPacketBytes s e)))).setIep e
      (inBankAfter (s.iep.get e) (inPacketBytes s e))) := .setIep (.of_grows (setTxq_grows e _ s) (by decide))
  exact { hbank with }

/-- A bus move other than an OUT or an IN packet writes only flags and STUPCNT of a bank. -/
theorem busEffect_banks (m : BusMove) (s : State) :
    KeepsBanks s (busEffect s m) ∨ (∃ e data dpid frm, m = .out e data dpid frm) ∨ ∃ e, m = .take e := by
  have hrxq : ∀ q, KeepsBanks s (s.setRxq q) := fun q => .of_grows (setRxq_grows q s) (by decide)
  have hpending : ∀ {u p}, KeepsBanks s u → KeepsBanks s { u with setupPending := p } := fun hu => { hu with }
  cases m with
  | reset | enumdone | wake => exact .inl (.setCore (.refl s))
  | iso dir => cases dir <;> exact .inl (.setCore (.refl s))
  | out e data dpid frm => exact .inr (.inl ⟨e, data, dpid, frm, rfl⟩)
  | setup e data frm =>
    left
    unfold busEffect busSetup
    simp only
    split
    · exact hpending (hrxq _).setOep.setIep.setOep
    · exact hpending (hrxq _).setOep
  | setupdone e => exact .inl (hpending (hrxq _).setOep)
  | take e => exact .inr (.inr ⟨e, rfl⟩)

theorem busEffect_keepsMapping (m : BusMove) (s : State) : KeepsMapping s (busEffect s m) := by
  obtain h | ⟨e, data, dpid, frm, rfl⟩ | ⟨e, rfl⟩ := busEffect_banks m s
  · exact h.mapping
  · exact busOut_keepsMapping e data dpid frm s
  · exact busTake_keepsMapping e s

/-! ## Endpoint 0's counts (10_state R32, R35) -/

theorem Ep0FieldsOk.of_keepsBanks {s t : State} (hs : Ep0FieldsOk s) (h : KeepsBanks s t) : Ep0FieldsOk t := by
  have hiep := h.iep 0
  have hoep := h.oep 0
  simp only [InBank.steady, OutBank.steady, Prod.mk.injEq] at hiep hoep
  obtain ⟨-, hsiz, hcnt⟩ := hiep
  obtain ⟨-, hsiz', hcnt'⟩ := hoep
  unfold Ep0FieldsOk
  rwa [hsiz, hcnt, hsiz', hcnt']

/-- A bank written at another endpoint than 0 may have any counts. -/
theorem Ep0FieldsOk.setIep {s : State} {e : Ep} {b : InBank} (hs : Ep0FieldsOk s)
    (hb : e = 0 → b.xfrsiz.toNat < 2 ^ 7 ∧ b.pktcnt.toNat < 2 ^ 2) : Ep0FieldsOk (s.setIep e b) := by
  obtain ⟨hsiz, hcnt, hout⟩ := hs
  unfold Ep0FieldsOk
  rw [State.setIep_iep, PerEp.get_set]
  split
  · next he => exact ⟨(hb he.symm).1, (hb he.symm).2, hout⟩
  · exact ⟨hsiz, hcnt, hout⟩

theorem Ep0FieldsOk.setOep {s : State} {e : Ep} {b : OutBank} (hs : Ep0FieldsOk s)
    (hb : e = 0 → b.xfrsiz.toNat < 2 ^ 7 ∧ b.pktcnt.toNat < 2) : Ep0FieldsOk (s.setOep e b) := by
  obtain ⟨hsiz, hcnt, hout⟩ := hs
  unfold Ep0FieldsOk
  rw [State.setOep_oep, PerEp.get_set]
  split
  · next he => exact ⟨hsiz, hcnt, hb he.symm⟩
  · exact ⟨hsiz, hcnt, hout⟩

/-- Endpoint 0's XFRSIZ_MAX has 7 bits (00_scope R7). -/
theorem xfrsizMax_zero_lt (cfg : Config) : cfg.xfrsizMax 0 < 2 ^ 7 := cfg.xfrsizMaxEp0.isLt

/-- Endpoint 0's PKTCNT_MAX_IN has 2 bits (00_scope R7). -/
theorem pktcntMaxIn_zero_lt (cfg : Config) : cfg.pktcntMaxIn 0 < 2 ^ 2 := cfg.pktcntMaxInEp0.isLt

/-- Endpoint 0's PKTCNT_MAX_OUT has 1 bit (00_scope R7). -/
theorem pktcntMaxOut_zero_lt (cfg : Config) : cfg.pktcntMaxOut 0 < 2 := cfg.pktcntMaxOutEp0.isLt

theorem outXfrsiz_zero_lt (s : State) (n : Nat) : (BitVec.ofNat 19 (outXfrsiz s 0 n)).toNat < 2 ^ 7 := by
  have hle : outXfrsiz s 0 n ≤ s.cfg.xfrsizMax 0 := Nat.min_le_right _ _
  have := xfrsizMax_zero_lt s.cfg
  rw [BitVec.toNat_ofNat]
  omega

theorem outPktcnt_zero_lt (s : State) (size : Nat) : (BitVec.ofNat 10 (outPktcnt s 0 size)).toNat < 2 := by
  have hle : outPktcnt s 0 size ≤ s.cfg.pktcntMaxOut 0 := Nat.min_le_right _ _
  have := pktcntMaxOut_zero_lt s.cfg
  rw [BitVec.toNat_ofNat]
  omega

/-- Check (5) of an IN arm keeps what the bank is programmed with representable (43_transfer_api R120). -/
theorem armInBank_zero_lt {size : BitVec 19} {buf : Word} {s : State} (b : InBank)
    (hv : inVerdict 0 size.toNat buf s = .pass) :
    (armInBank b size (packetCount size.toNat (mpsIn s 0))).xfrsiz.toNat < 2 ^ 7 ∧
      (armInBank b size (packetCount size.toNat (mpsIn s 0))).pktcnt.toNat < 2 ^ 2 := by
  obtain ⟨-, -, -, -, hlimit, -, -⟩ := armVerdict_pass hv
  have hfits : ¬ (s.cfg.xfrsizMax 0 < size.toNat ∨ s.cfg.pktcntMaxIn 0 < packetCount size.toNat (mpsIn s 0)) :=
    fun h => (inLimit_eq_none s 0 size.toNat).1 hlimit .tooLarge (.inl ⟨rfl, h⟩)
  have := xfrsizMax_zero_lt s.cfg
  have := pktcntMaxIn_zero_lt s.cfg
  simp only [armInBank, BitVec.toNat_ofNat]
  omega

/-- A count that goes down by no more than it holds does not wrap. -/
theorem sub_ofNat_toNat_le {w p : Nat} {x : BitVec w} (hp : p ≤ x.toNat) : (x - BitVec.ofNat w p).toNat ≤ x.toNat := by
  have hle : BitVec.ofNat w p ≤ x := by
    rw [BitVec.le_def, BitVec.toNat_ofNat]
    exact (Nat.mod_le p _).trans hp
  rw [BitVec.toNat_sub_of_le hle]
  exact Nat.sub_le _ _

theorem outBankAfter_counts_le {b : OutBank} (len : Nat) (ends : Bool) (h : 0 < b.pktcnt.toNat) :
    (outBankAfter b len ends).xfrsiz.toNat ≤ b.xfrsiz.toNat ∧
      (outBankAfter b len ends).pktcnt.toNat ≤ b.pktcnt.toNat :=
  ⟨sub_ofNat_toNat_le (Nat.min_le_right _ _), sub_ofNat_toNat_le (p := 1) h⟩

theorem inBankAfter_counts_le {b : InBank} {p : Nat} (hp : p ≤ b.xfrsiz.toNat) (h : 0 < b.pktcnt.toNat) :
    (inBankAfter b p).xfrsiz.toNat ≤ b.xfrsiz.toNat ∧ (inBankAfter b p).pktcnt.toNat ≤ b.pktcnt.toNat :=
  ⟨sub_ofNat_toNat_le hp, sub_ofNat_toNat_le (p := 1) h⟩

theorem Ep0FieldsOk.busEffect {s : State} {m : BusMove} (hs : Ep0FieldsOk s) (hb : busEnabled s m = true) :
    Ep0FieldsOk (busEffect s m) := by
  obtain ⟨hsiz, hcnt, hsiz', hcnt'⟩ := hs
  obtain h | ⟨e, data, dpid, frm, rfl⟩ | ⟨e, rfl⟩ := busEffect_banks m s
  · exact Ep0FieldsOk.of_keepsBanks ⟨hsiz, hcnt, hsiz', hcnt'⟩ h
  · simp only [busEnabled, outEnabled, Bool.and_eq_true, decide_eq_true_eq] at hb
    obtain ⟨-, ⟨⟨-, hpos⟩, -⟩, -⟩ := hb
    refine Ep0FieldsOk.setOep (s := s.setRxq _) ⟨hsiz, hcnt, hsiz', hcnt'⟩ ?_
    rintro rfl
    obtain ⟨hle, hle'⟩ := outBankAfter_counts_le data.length (outEnds s 0 data.length) hpos
    exact ⟨by omega, by omega⟩
  · simp only [busEnabled, takeEnabled, Bool.and_eq_true, decide_eq_true_eq] at hb
    obtain ⟨-, ⟨-, hpos⟩, -⟩ := hb
    refine Ep0FieldsOk.setIep (s := s.setTxq e _) ⟨hsiz, hcnt, hsiz', hcnt'⟩ ?_
    rintro rfl
    obtain ⟨hle, hle'⟩ := inBankAfter_counts_le (p := inPacketBytes s 0) (Nat.min_le_right _ _) hpos
    exact ⟨by omega, by omega⟩

/-! ## A command -/

/-- `t` has the mapping of `s`, and counts at endpoint 0 that fit if those of `s` do. -/
structure KeepsFitting (s t : State) : Prop where
  mapping : KeepsMapping s t
  fits : Ep0FieldsOk s → Ep0FieldsOk t

theorem KeepsFitting.of_banks {s t : State} (h : KeepsBanks s t) : KeepsFitting s t :=
  ⟨h.mapping, fun hs => hs.of_keepsBanks h⟩

theorem KeepsFitting.trans {s t u : State} (h : KeepsFitting s t) (k : KeepsFitting t u) : KeepsFitting s u :=
  ⟨h.mapping.trans k.mapping, fun hs => k.fits (h.fits hs)⟩

theorem KeepsFitting.of_grows {ps : List Part} {s t : State} (h : Grows ps s t)
    (hps : ∀ p ∈ [Part.inited, .core, .iep, .oep], p ∉ ps) : KeepsFitting s t := .of_banks (.of_grows h hps)

/-- The registers that an arm of IN_TRANSFER leaves: the IN bank programmed, and of the others only a FIFO-empty mask bit
written (43_transfer_api R120). -/
theorem armIn_go_regs {e : Ep} {size : BitVec 19} {buf tmo : Word} {s t : State} (h : armIn e size buf tmo s = .go t) :
    t.iep = s.iep.set e (armInBank (s.iep.get e) size (packetCount size.toNat (mpsIn s e))) ∧ t.oep = s.oep ∧
      t.inited = s.inited ∧ t.cfg = s.cfg ∧ t.core = { s.core with txfem := t.core.txfem } := by
  unfold armIn at h
  simp only at h
  split at h
  · obtain ⟨n, q, -, -, hw⟩ | hw := writePacket_pushes e buf.toNat size.toNat
      ((s.setDin e (armedDescriptor buf size)).setIep e
        (armInBank (s.iep.get e) size (packetCount size.toNat (mpsIn s e)))) <;> rw [hw] at h <;> cases h
    simp
  · cases h
    simp

theorem armIn_keepsFitting {e : Ep} {size : BitVec 19} {buf tmo : Word} {s t : State}
    (hv : inVerdict e size.toNat buf s = .pass) (h : armIn e size buf tmo s = .go t) : KeepsFitting s t := by
  obtain ⟨hiep, hoep, hinit, hcfg, hcore⟩ := armIn_go_regs h
  refine ⟨⟨hcfg, hinit, by rw [hcore], by rw [hcore], by rw [hcore]; rfl, .inl (by rw [hcore]), fun k => ?iep,
    fun k => by rw [hoep]⟩, fun hs => ?fits⟩
  case iep =>
    rw [hiep]
    refine PerEp.get_set_view ?_ k
    rfl
  case fits =>
    have hset : Ep0FieldsOk (s.setIep e (armInBank (s.iep.get e) size (packetCount size.toNat (mpsIn s e)))) :=
      hs.setIep fun he => by subst he; exact armInBank_zero_lt _ hv
    unfold Ep0FieldsOk
    rw [hiep, hoep]
    exact hset

theorem Ep0FieldsOk.onCur {s : State} (f : Task → Task) (hs : Ep0FieldsOk s) : Ep0FieldsOk (onCur f s) :=
  hs.of_keepsBanks (.of_grows (onCur_grows f s) (by decide))

theorem armOut_keepsFitting (e : Ep) (size : BitVec 19) (buf tmo : Word) (s : State) :
    KeepsFitting s (armOut e size buf tmo s) := by
  refine ⟨(KeepsRegs.setOep (.of_grows (setDout_grows e _ s) (by decide))).wait, fun hs => Ep0FieldsOk.onCur _ ?_⟩
  refine Ep0FieldsOk.setOep (s := s.setDout e _) hs ?_
  rintro rfl
  exact ⟨outXfrsiz_zero_lt s _, outPktcnt_zero_lt s _⟩

/-- A SETUP arm leaves PKTCNT as it is (43_transfer_api R122). -/
theorem armSetup_keepsFitting (e : Ep) (size : BitVec 19) (buf tmo : Word) (s : State) :
    KeepsFitting s (armSetup e size buf tmo s) := by
  refine ⟨(KeepsRegs.setOep (.of_grows (setDout_grows e _ s) (by decide))).wait, fun hs => Ep0FieldsOk.onCur _ ?_⟩
  refine Ep0FieldsOk.setOep (s := s.setDout e _) hs ?_
  rintro rfl
  obtain ⟨-, -, -, hcnt⟩ := hs
  exact ⟨outXfrsiz_zero_lt s _, hcnt⟩

/-- INIT or a configure command completes in state `s`. -/
inductive Remaps (s : State) : State → Prop where
  | init : Remaps s (Machine.advance (bringUp s))
  | mapIn (e : Ep) (ty : EpType) (mps v : BitVec 11) : mpsizFor s.cfg e ty mps = .ok v →
      Remaps s (Machine.advance (mapInEp e ty v s))
  | mapOut (e : Ep) (ty : EpType) (mps v : BitVec 11) : mpsizFor s.cfg e ty mps = .ok v →
      Remaps s (Machine.advance (mapOutEp e ty v s))

/-- Every command but INIT and the configure commands keeps the mapping. -/
theorem PortEffect.regs {s t : State} (h : PortEffect s t) : KeepsFitting s t ∨ Remaps s t := by
  have hself := KeepsRegs.refl (f := InBank.steady) (g := OutBank.steady) s
  cases h with
  | init => exact .inr .init
  | configureIn e ty mps v _ _ hv => exact .inr (.mapIn e ty mps v hv)
  | configureOut e ty mps v _ _ hv => exact .inr (.mapOut e ty mps v hv)
  | armIn e size buf tmo t hv hgo => exact .inl (armIn_keepsFitting hv hgo)
  | armOut e size buf tmo => exact .inl (armOut_keepsFitting e size buf tmo s)
  | armSetup e size buf tmo => exact .inl (armSetup_keepsFitting e size buf tmo s)
  | refused r => exact .inl (.of_grows (refuse_grows r s) (by decide))
  | error v => exact .inl (.of_grows (onCur_grows _ s) (by decide))
  | race a => exact .inl (.of_grows (raise_grows _ s) (by decide))
  | connect | setRx | setTx => exact .inl (.of_banks hself.setCore.advance)
  | disconnect =>
    refine .inl (.of_banks (KeepsRegs.advance ?_))
    exact ⟨rfl, rfl, rfl, rfl, rfl, .inl rfl, fun _ => rfl, fun _ => rfl⟩
  | address => exact .inl (.of_banks (hself.setCore.followedBy (emit_grows _ _) (by decide)).advance)
  | stallIn | disableIn => exact .inl (.of_banks hself.setIep.advance)
  | stallOut | disableOut => exact .inl (.of_banks hself.setOep.advance)

/-! ## A step keeps the mapping, but for INIT and the configure commands -/

theorem step_regs {s t : State} (h : step s = .next t) :
    KeepsFitting s t ∨ ∃ u, KeepsFitting s u ∧ Remaps u t := by
  have hafter : KeepsFitting s (afterTurn s) := .of_grows (afterTurn_grows s) (by decide)
  have htask : ∀ j, KeepsFitting s (taskState j s) := fun j => .of_grows (taskState_grows j s) (by decide)
  obtain ⟨j, k, i, -, -, -, hi, he⟩ | ⟨j, k, r, -, -, -, -, rfl⟩ | ⟨j, k, dir, e, t0, tmo, -, -, -, rfl⟩ |
    ⟨j, k, -, -, -, rfl⟩ | ⟨j, -, -, rfl⟩ | ⟨-, -, hd⟩ | ⟨-, -, rfl⟩ | ⟨m, -, hb, rfl⟩ | ⟨m, -, -, rfl⟩ | ⟨-, rfl⟩ |
    ⟨j, -, rfl⟩ := step_cases h
  · obtain hkeeps | hmaps := (port_effect (decodeCommand_port hi) he).regs
    · exact .inl ((htask j).trans hkeeps)
    · exact .inr ⟨_, htask j, hmaps⟩
  · exact .inl ((htask j).trans (.of_grows (rejectWord_grows r _) (by decide)))
  · exact .inl ((htask j).trans (.of_banks (poll_keepsBanks dir e t0 tmo _)))
  · exact .inl (htask j)
  · exact .inl hafter
  · exact .inl (hafter.trans (.of_banks ((dispatch_keepsBanks _).outcome hd)))
  · exact .inl hafter
  · exact .inl (hafter.trans ⟨busEffect_keepsMapping m _, fun hs => hs.busEffect hb⟩)
  · exact .inl hafter
  · exact .inl (hafter.trans (.of_grows (tick_grows _) (by decide)))
  · exact .inl (hafter.trans (.of_grows (observe_grows j _) (by decide)))

theorem Ep0FieldsOk.remaps {s t : State} (hs : Ep0FieldsOk s) (h : Remaps s t) : Ep0FieldsOk t := by
  have ⟨hsiz, hcnt, hout⟩ := hs
  cases h with
  | init =>
    refine Ep0FieldsOk.onCur _ ?_
    simp [Ep0FieldsOk, bringUp, InBank.zero, OutBank.zero]
  | mapIn e =>
    refine Ep0FieldsOk.onCur _ (Ep0FieldsOk.setIep hs ?_)
    rintro rfl
    exact ⟨hsiz, hcnt⟩
  | mapOut e =>
    refine Ep0FieldsOk.onCur _ (Ep0FieldsOk.setOep hs ?_)
    rintro rfl
    exact hout

theorem Ep0FieldsOk.step {s t : State} (hs : Ep0FieldsOk s) (h : step s = .next t) : Ep0FieldsOk t := by
  obtain hkeeps | ⟨u, hkeeps, hmaps⟩ := step_regs h
  · exact hkeeps.fits hs
  · exact (hkeeps.fits hs).remaps hmaps

/-! ## The register mapper (41_endpoint_config R98) -/

theorem MapperOk.of_keepsMapping {s t : State} (hs : MapperOk s) (h : KeepsMapping s t) : MapperOk t := by
  intro e
  have hiep := h.iep e
  have hoep := h.oep e
  simp only [InBank.mapping, OutBank.mapping, Prod.mk.injEq] at hiep hoep
  obtain ⟨hact, hty, hmps, hnum⟩ := hiep
  obtain ⟨hact', hty', hmps'⟩ := hoep
  have hse := hs e
  unfold SizeOk at hse ⊢
  rwa [h.iepm, h.oepm, h.cfg, hact, hty, hmps, hnum, hact', hty', hmps']

/-- What a configure command writes to MPSIZ is a legal size of its endpoint (41_endpoint_config R96, R97). -/
theorem sizeOk_of_mpsizFor {s : State} {e : Ep} {ty : EpType} {mps v : BitVec 11} (active : Bool)
    (h : mpsizFor s.cfg e ty mps = .ok v) : SizeOk s e active ty v := by
  intro _
  unfold mpsizFor at h
  split at h
  · next he =>
    rw [if_pos he]
    split at h
    · cases h
    next hty =>
    split at h
    · cases h
    split at h
    · next c _ =>
      cases h
      refine ⟨by simpa using hty, ?_⟩
      have := c.isLt
      rw [BitVec.toNat_setWidth]
      omega
    · cases h
  · next he =>
    rw [if_neg he]
    split at h
    · cases h
    · cases h
      omega

theorem MapperOk.bringUp (s : State) : MapperOk (bringUp s) := fun e => by
  simp [Machine.bringUp, CoreRegs.afterInit, InBank.zero, OutBank.zero, SizeOk]

theorem MapperOk.mapInEp {s : State} {e : Ep} {ty : EpType} {mps v : BitVec 11} (hs : MapperOk s)
    (hv : mpsizFor s.cfg e ty mps = .ok v) : MapperOk (mapInEp e ty v s) := by
  intro k
  obtain ⟨hiepm, hoepm, hnum, hin, hout⟩ := hs k
  by_cases hk : k = e
  · subst hk
    refine ⟨by simp, hoepm, fun _ => ?_, ?_, hout⟩
    · have := k.isLt
      simp only [mapInEp_iep, PerEp.get_set_self, BitVec.toNat_ofNat]
      omega
    · simp only [mapInEp_iep, PerEp.get_set_self]
      exact sizeOk_of_mpsizFor (s := s) true hv
  · simp only [mapInEp_iep, mapInEp_core, PerEp.get_set_of_ne _ _ _ _ hk]
    exact ⟨hiepm, hoepm, hnum, hin, hout⟩

theorem MapperOk.mapOutEp {s : State} {e : Ep} {ty : EpType} {mps v : BitVec 11} (hs : MapperOk s)
    (hv : mpsizFor s.cfg e ty mps = .ok v) : MapperOk (mapOutEp e ty v s) := by
  intro k
  obtain ⟨hiepm, hoepm, hnum, hin, hout⟩ := hs k
  by_cases hk : k = e
  · subst hk
    refine ⟨hiepm, by simp, hnum, hin, ?_⟩
    simp only [mapOutEp_oep, PerEp.get_set_self]
    exact sizeOk_of_mpsizFor (s := s) true hv
  · simp only [mapOutEp_oep, mapOutEp_core, PerEp.get_set_of_ne _ _ _ _ hk]
    exact ⟨hiepm, hoepm, hnum, hin, hout⟩

theorem MapperOk.advance {s : State} (hs : MapperOk s) : MapperOk (advance s) :=
  hs.of_keepsMapping (KeepsRegs.refl s).advance

theorem MapperOk.remaps {s t : State} (hs : MapperOk s) (h : Remaps s t) : MapperOk t := by
  cases h with
  | init => exact (MapperOk.bringUp s).advance
  | mapIn e ty mps v hv => exact (hs.mapInEp hv).advance
  | mapOut e ty mps v hv => exact (hs.mapOutEp hv).advance

theorem MapperOk.step {s t : State} (hs : MapperOk s) (h : step s = .next t) : MapperOk t := by
  obtain hkeeps | ⟨u, hkeeps, hmaps⟩ := step_regs h
  · exact hs.of_keepsMapping hkeeps.mapping
  · exact (hs.of_keepsMapping hkeeps.mapping).remaps hmaps

/-! ## The baseline (10_state R20, R22, R27, R30) -/

theorem BaselineOk.of_modes {s t : State} (hs : BaselineOk s) (hinit : t.inited = s.inited)
    (hmsk : t.core.gintmsk = s.core.gintmsk ∨ t.core.gintmsk = gintmskBase) (hmodes : t.core.modes = s.core.modes) :
    BaselineOk t := by
  intro ht
  obtain ⟨hbase, hrest⟩ := hs (hinit ▸ ht)
  simp only [CoreRegs.modes, Prod.mk.injEq] at hmodes
  obtain ⟨hphy, hfd, hdspd, hin, hout, hstup⟩ := hmodes
  rw [hphy, hfd, hdspd, hin, hout, hstup]
  exact ⟨hmsk.elim (fun h => h.trans hbase) id, hrest⟩

theorem BaselineOk.of_keepsMapping {s t : State} (hs : BaselineOk s) (h : KeepsMapping s t) : BaselineOk t :=
  hs.of_modes h.inited h.gintmsk h.modes

theorem BaselineOk.remaps {s t : State} (hs : BaselineOk s) (h : Remaps s t) : BaselineOk t := by
  cases h with
  | init =>
    intro _
    simp [bringUp, CoreRegs.afterInit, gintmskBase]
  | mapIn | mapOut => exact hs.of_modes (advance_inited _) (.inl (by simp)) (by simp [CoreRegs.modes])

theorem BaselineOk.step {s t : State} (hs : BaselineOk s) (h : step s = .next t) : BaselineOk t := by
  obtain hkeeps | ⟨u, hkeeps, hmaps⟩ := step_regs h
  · exact hs.of_keepsMapping hkeeps.mapping
  · exact (hs.of_keepsMapping hkeeps.mapping).remaps hmaps

/-! ## The clock (10_state R46, R48) -/

/-- A property of every task is kept where one task changes to one that has it. -/
theorem forall_tasks_of_one {p : Task → Prop} {j : Nat} {s t : State} {k' : Task} (hs : ∀ k ∈ s.tasks, p k)
    (ht : t.tasks[j]? = some k') (hk' : p k') (ho : OtherTasks j s t) : ∀ k ∈ t.tasks, p k := by
  intro k hk
  obtain ⟨i, hi⟩ := List.mem_iff_getElem?.1 hk
  by_cases hij : i = j
  · subst hij
    obtain rfl : k' = k := Option.some.inj (ht.symm.trans hi)
    exact hk'
  · exact hs k (List.mem_iff_getElem?.2 ⟨i, (ho i hij).symm.trans hi⟩)

/-- A part of a step that keeps the clock, and whose current task stays, completes its command or waits since now. -/
theorem ClockOk.of_tasks {s t : State} {k : Task} (hs : ClockOk s) (hcfg : t.cfg = s.cfg) (hnow : t.now = s.now)
    (hk : s.tasks[s.cur]? = some k) (h : t.tasks = s.tasks ∨ (∃ r, Completed s.cur r s t) ∨
      ∃ dir e tmo, Waits dir e tmo s t) : ClockOk t := by
  obtain ⟨hclock, htasks⟩ := hs
  unfold ClockOk
  rw [hcfg, hnow]
  refine ⟨hclock, ?_⟩
  obtain heq | ⟨r, hdone, hother⟩ | ⟨dir, e, tmo, hwait, hother⟩ := h
  · rwa [heq]
  · refine forall_tasks_of_one htasks (hdone k hk) (fun dir e t0 tmo hp => ?_) hother
    have hquiet := k.next_isWaiting r
    simp [Task.isWaiting, hp] at hquiet
  · refine forall_tasks_of_one htasks (hwait k hk) (fun dir' e' t0 tmo' hp => ?_) hother
    cases hp
    exact hclock

theorem ClockOk.of_grows {ps : List Part} {s t : State} (hs : ClockOk s) (h : Grows ps s t)
    (hps : ∀ p ∈ [Part.now, .tasks], p ∉ ps) : ClockOk t := by
  have hnow : t.now = s.now := h.only .now (hps .now (by decide))
  have htasks : t.tasks = s.tasks := h.only .tasks (hps .tasks (by decide))
  unfold ClockOk
  rwa [h.sticky.cfg, hnow, htasks]

theorem ClockOk.poll {s : State} {k : Task} (dir : Dir) (e : Ep) (t0 : Nat) (tmo : Word) (hs : ClockOk s)
    (hk : s.tasks[s.cur]? = some k) : ClockOk (poll dir e t0 tmo s) := by
  obtain ⟨hgrows, hpoll⟩ := poll_effect dir e t0 tmo s
  refine hs.of_tasks hgrows.sticky.cfg (hgrows.only .now (by decide)) hk ?_
  exact hpoll.imp (fun h => by rw [h]) fun ⟨v, hv⟩ => .inl ⟨some v, hv⟩

theorem ClockOk.tick {s : State} (hs : ClockOk s) : ClockOk (tick s) := ⟨Nat.mod_lt _ (clockPeriod_pos _), hs.2⟩

theorem ClockOk.step {s t : State} (hs : ClockOk s) (h : step s = .next t) : ClockOk t := by
  refine step_keeps (P := ClockOk) ?sched ?cmd ?poll ?disp ?bus ?tick ?refuse ?observe hs h
  case sched => exact fun s sched turns draws cur hs => hs
  case cmd =>
    intro i s t k hi hk _ hs he
    have heffect := port_effect hi he
    exact hs.of_tasks heffect.keeps.1.cfg heffect.keeps.2 hk heffect.tasks
  case poll => exact fun s k dir e t0 tmo hk _ hs => hs.poll dir e t0 tmo hk
  case disp => exact fun s _ hs => (dispatch_grows s).mono fun t ht => hs.of_grows ht (by decide)
  case bus => exact fun m s _ hs => hs.of_grows (busEffect_grows m s) (by decide)
  case tick => exact fun s hs => hs.tick
  case refuse => exact fun r s hs => hs
  case observe => exact fun n s hs => hs

/-- Settles O55: the mapping and the modes change only by INIT, a configure command and the Reset service's mask, the
counts of endpoint 0 only by an arm that checks or clamps them and a packet that lowers them, and the clock wraps. -/
theorem registersKeepTheirInvariants : Obligations.RegistersKeepTheirInvariants := by
  unfold Obligations.RegistersKeepTheirInvariants
  exact ⟨fun s t hs h => hs.step h, fun s t hs h => hs.step h, fun s t hs h => hs.step h, fun s t hs h => hs.step h⟩

end Sys2Proof.Machine

/-! SUPPORT. Proofs of the statements about FIFO allocation (41_endpoint_config R99 to R101): what the allocation check
means, and the two FIFO-size commands, which are one shared chain of checks. -/

namespace Sys2Proof.Machine

/-! ## The allocation check (20_memory R55, 41_endpoint_config R101) -/

theorem allocOk_of_allocMeets {ram rxfd : Nat} {txsa txfd : PerEp Nat} (h : AllocMeets ram rxfd txsa.get txfd.get) :
    allocOk ram rxfd txsa txfd = true := by
  obtain ⟨hbounds, hapart, hrx⟩ := h
  simp only [allocOk, Bool.and_eq_true, List.all_eq_true, Bool.or_eq_true, decide_eq_true_eq, rangesDisjoint]
  refine ⟨⟨fun e _ => ?bounds, fun e _ k _ => ?apart⟩, hrx⟩
  case bounds => exact (Nat.eq_zero_or_pos _).imp id (hbounds e)
  case apart =>
    by_cases hne : e = k
    · exact .inl (.inl (.inl hne))
    obtain he | he := Nat.eq_zero_or_pos (txfd.get e)
    · exact .inl (.inl (.inr he))
    obtain hk | hk := Nat.eq_zero_or_pos (txfd.get k)
    · exact .inl (.inr hk)
    · exact .inr (hapart e k hne he hk)

theorem allocOk_iff {ram rxfd : Nat} {txsa txfd : PerEp Nat} :
    allocOk ram rxfd txsa txfd = true ↔ AllocMeets ram rxfd txsa.get txfd.get :=
  ⟨allocMeets_of_allocOk, allocOk_of_allocMeets⟩

/-- Settles O20: an empty range passes the check's first alternatives, and any other has to meet (a) and (b). -/
theorem allocCheckMeaning : Obligations.AllocCheckMeaning := by
  unfold Obligations.AllocCheckMeaning
  exact fun ram rxfd txsa txfd => allocOk_iff

theorem depthsOf_get_eq (t : PerEp (BitVec 16)) : (depthsOf t).get = fun e => (t.get e).toNat := funext (depthsOf_get t)

theorem depthsOf_set_get_eq (t : PerEp (BitVec 16)) (e : Ep) (n : Nat) :
    ((depthsOf t).set e n).get = fun k => if k = e then n else (t.get k).toNat :=
  funext fun k => by rw [PerEp.get_set, depthsOf_get]

/-- The start of a transmit FIFO is the receive FIFO's depth and the sum of the lower endpoints' (41_endpoint_config
R100). -/
theorem txStart_eq (s : State) (e : Ep) : txStart s e =
    s.core.rxfd.toNat + (Finset.univ.filter fun k : Ep => k < e).sum fun k => (s.core.txfd.get k).toNat := by
  have hnodup : allEps.Nodup := by decide
  have huniv : allEps.toFinset = Finset.univ := by decide
  rw [txStart, ← List.sum_toFinset _ (hnodup.filter _), List.toFinset_filter, huniv]
  simp

/-! ## The chain of checks -/

/-- The checks that the two FIFO-size commands share, and the state `u` with the allocation written past them. -/
def resizeFifo (busy fits : Bool) (u s : State) : State :=
  if !s.inited then refuse .notInited s
  else if busy then refuse .resizeBusy s
  else if fits then advance u
  else refuse .fifoAlloc s

theorem exec_setRxFifoSize (words : BitVec 16) (s : State) : exec (.setRxFifoSize words) s =
    .next (resizeFifo (!s.rxq.isEmpty || allEps.any (fun k => (s.dout.get k).isArmed))
      (allocOk s.cfg.fifoRamWords.toNat (fifoDepth s.cfg words) (depthsOf s.core.txsa) (depthsOf s.core.txfd))
      (s.setCore { s.core with rxfd := BitVec.ofNat 16 (fifoDepth s.cfg words) }) s) := by
  rfl

theorem exec_setTxFifoSize (e : Ep) (words : BitVec 16) (s : State) : exec (.setTxFifoSize e words) s =
    .next (resizeFifo (!(s.txq.get e).isEmpty || (s.din.get e).isArmed)
      (allocOk s.cfg.fifoRamWords.toNat s.core.rxfd.toNat ((depthsOf s.core.txsa).set e (txStart s e))
        ((depthsOf s.core.txfd).set e (fifoDepth s.cfg words)))
      (s.setCore { s.core with
        txsa := s.core.txsa.set e (BitVec.ofNat 16 (txStart s e)),
        txfd := s.core.txfd.set e (BitVec.ofNat 16 (fifoDepth s.cfg words)) }) s) := by
  rfl

/-- What a FIFO-size command does: its refusals in their order, else the allocation written. -/
theorem resizeFifo_outcomes {i : Instr} {busy fits : Bool} {isBusy isFit : Prop} {u s : State}
    (hx : exec i s = .next (resizeFifo busy fits u s)) (hbusy : busy = true ↔ isBusy) (hfits : fits = true ↔ isFit) :
    (s.inited = false → Refuses i .notInited s) ∧
    (s.inited = true →
      (isBusy → Refuses i .resizeBusy s) ∧ (¬ isBusy → ¬ isFit → Refuses i .fifoAlloc s) ∧
      (¬ isBusy → isFit → exec i s = .next (advance u))) := by
  rw [← hbusy, ← hfits]
  refine ⟨fun hs => ?notInited, fun hs => ⟨fun hb => ?busy, fun hb hf => ?fifoAlloc, fun hb hf => ?written⟩⟩
  case notInited => exact refuses_of_exec (by simp [hx, resizeFifo, hs])
  case busy => exact refuses_of_exec (by simp [hx, resizeFifo, hs, hb])
  case fifoAlloc => exact refuses_of_exec (by simp [hx, resizeFifo, hs, hb, hf])
  case written => simp [hx, resizeFifo, hs, hb, hf]

/-! ## The statements -/

theorem rxBusy_iff (s : State) : (!s.rxq.isEmpty || allEps.any (fun k => (s.dout.get k).isArmed)) = true ↔
    s.rxq ≠ [] ∨ ∃ k, (s.dout.get k).status = .armed := by
  simp [mem_allEps, Descriptor.isArmed_iff]

theorem txBusy_iff (s : State) (e : Ep) : (!(s.txq.get e).isEmpty || (s.din.get e).isArmed) = true ↔
    s.txq.get e ≠ [] ∨ (s.din.get e).status = .armed := by
  simp [Descriptor.isArmed_iff]

/-- Settles O18: the shared chain of checks; a depth that fits in the RAM fits in RXFD. -/
theorem setRxFifoSizeEffect : Obligations.SetRxFifoSizeEffect := by
  unfold Obligations.SetRxFifoSizeEffect
  intro words s i w busy fits
  have hfits : allocOk s.cfg.fifoRamWords.toNat w (depthsOf s.core.txsa) (depthsOf s.core.txfd) = true ↔ fits := by
    rw [allocOk_iff, depthsOf_get_eq, depthsOf_get_eq]
  obtain ⟨hinit, hchecks⟩ := resizeFifo_outcomes (exec_setRxFifoSize words s) (rxBusy_iff s) hfits
  refine ⟨hinit, fun hs => ?_⟩
  obtain ⟨hbusy, halloc, hwritten⟩ := hchecks hs
  refine ⟨hbusy, halloc, fun hb hf => ⟨_, hwritten hb hf, ?depth, by simp, advance_completed rfl rfl,
    (setCore_grows _ s).only.advance⟩⟩
  case depth =>
    obtain ⟨-, -, hram⟩ := hf
    have hlt := s.cfg.fifoRamWords.isLt
    rw [advance_core, State.setCore_core, BitVec.toNat_ofNat]
    exact Nat.mod_eq_of_lt (Nat.lt_of_le_of_lt hram hlt)

/-- Settles O19: the shared chain of checks; a start and a depth that fit in the RAM fit in TXSA and TXFD. -/
theorem setTxFifoSizeEffect : Obligations.SetTxFifoSizeEffect := by
  unfold Obligations.SetTxFifoSizeEffect
  intro e words s i w
  rw [← txStart_eq]
  intro sa busy fits
  have hfits : allocOk s.cfg.fifoRamWords.toNat s.core.rxfd.toNat ((depthsOf s.core.txsa).set e sa)
      ((depthsOf s.core.txfd).set e w) = true ↔ fits := by
    rw [allocOk_iff, depthsOf_set_get_eq, depthsOf_set_get_eq]
  obtain ⟨hinit, hchecks⟩ := resizeFifo_outcomes (exec_setTxFifoSize e words s) (txBusy_iff s e) hfits
  refine ⟨hinit, fun hs => ?_⟩
  obtain ⟨hbusy, halloc, hwritten⟩ := hchecks hs
  refine ⟨hbusy, halloc, fun hb hf => ⟨_, hwritten hb hf, by simp [sa, w, fifoDepth], fun hpos => ?written,
    advance_completed rfl rfl, (setCore_grows _ s).only.advance⟩⟩
  case written =>
    obtain ⟨hbounds, -, -⟩ := hf
    have hram := s.cfg.fifoRamWords.isLt
    have hend := (hbounds e (by simpa using hpos)).2
    simp only [if_true] at hend
    simp only [advance_core, State.setCore_core, PerEp.get_set_self, BitVec.toNat_ofNat]
    exact ⟨Nat.mod_eq_of_lt (show sa < 2 ^ 16 by omega), Nat.mod_eq_of_lt (show w < 2 ^ 16 by omega)⟩

end Sys2Proof.Machine

/-! SUPPORT. Proofs of the statements about the bus-level services and the endpoint event rows (42_bus_event_handler R106,
R107, R110, R111, R113), and of the one-packet IN transfer that the FIFO-empty row and the bus agent carry out. -/

namespace Sys2Proof.Machine

/-! ## Descriptors that a service ends (42_bus_event_handler R105, R106) -/

/-- Only an Armed descriptor fails by a bus reset. -/
theorem Descriptor.afterReset_eq (d : Descriptor) :
    (d.status = .armed → d.afterReset = { d with status := .failed .reset }) ∧
    (d.status ≠ .armed → d.afterReset = d) := by
  unfold Descriptor.afterReset
  exact ⟨fun h => if_pos (d.isArmed_iff.2 h), fun h => if_neg (mt d.isArmed_iff.1 h)⟩

/-- Only an Armed descriptor completes, with its offset. -/
theorem Descriptor.completed_eq (d : Descriptor) :
    (d.status = .armed → d.completed = { d with status := .complete d.off }) ∧ (d.status ≠ .armed → d.completed = d) := by
  unfold Descriptor.completed
  exact ⟨fun h => if_pos (d.isArmed_iff.2 h), fun h => if_neg (mt d.isArmed_iff.1 h)⟩

/-! ## Reset, EnumerationDone and Wake (42_bus_event_handler R106, R107, R113) -/

theorem busReset_only (s : State) :
    OnlyChanges [.core, .iep, .oep, .rxq, .txq, .din, .dout, .busActive, .events, .setupPending] s (busReset s) :=
  fun p hp => by cases p <;> simp_all [Same, busReset]

/-- Settles O30: the service writes each table as a whole, so its value at an endpoint is that of one function there. -/
theorem resetServiceEffect : Obligations.ResetServiceEffect := by
  unfold Obligations.ResetServiceEffect
  intro s
  refine ⟨busReset s, rfl, rfl, rfl, rfl, rfl, fun e => ?endpoint, busReset_only s⟩
  case endpoint =>
    have hdin : (busReset s).din.get e = (s.din.get e).afterReset := PerEp.get_map _ s.din e
    have hdout : (busReset s).dout.get e = (s.dout.get e).afterReset := PerEp.get_map _ s.dout e
    rw [hdin, hdout]
    exact ⟨PerEp.get_all _ e, PerEp.get_all _ e, PerEp.get_map _ s.iep e, PerEp.get_map _ s.oep e,
      (s.din.get e).afterReset_eq.1, (s.din.get e).afterReset_eq.2,
      (s.dout.get e).afterReset_eq.1, (s.dout.get e).afterReset_eq.2⟩

/-- Settles O31: each service is one write of the fields that it names. -/
theorem enumerationDoneAndWake : Obligations.EnumerationDoneAndWake := by
  unfold Obligations.EnumerationDoneAndWake
  exact fun s => ⟨⟨enumDone s, rfl, rfl, rfl, (enumDone_grows s).only⟩, wake s, rfl, rfl, (wake_grows s).only⟩

/-! ## Completion events (42_bus_event_handler R110, R111) -/

theorem inXfrcFlag_iff (s : State) (e : Ep) :
    inXfrcFlag s e = true ↔ (s.iep.get e).xfrc = true ∧ s.core.diepmskXfrcm = true := by
  simp [inXfrcFlag]

theorem inTxfeFlag_iff (s : State) (e : Ep) :
    inTxfeFlag s e = true ↔ s.txq.get e = [] ∧ s.core.txfem.get e = true := by
  simp [inTxfeFlag, txfe]

theorem outXfrcFlag_iff (s : State) (e : Ep) :
    outXfrcFlag s e = true ↔ (s.oep.get e).xfrc = true ∧ s.core.doepmskXfrcm = true := by
  simp [outXfrcFlag]

theorem outStupFlag_iff (s : State) (e : Ep) :
    outStupFlag s e = true ↔ (s.oep.get e).stup = true ∧ s.core.doepmskStupm = true := by
  simp [outStupFlag]

theorem inXfrcEvent_of_flag {e : Ep} {s : State} (h : inXfrcFlag s e = true) :
    inXfrcEvent e s = (s.setIep e { s.iep.get e with xfrc := false }).setDin e (s.din.get e).completed := by
  unfold inXfrcEvent
  exact if_pos h

theorem inXfrcEvent_of_not_flag {e : Ep} {s : State} (h : ¬ inXfrcFlag s e = true) : inXfrcEvent e s = s := by
  unfold inXfrcEvent
  exact if_neg h

/-- IEP_XFRC: "transfer complete" of an endpoint whose event class is on (log 20). -/
theorem exec_iepXfrc (e : Ep) (s : State) :
    exec (.iepXfrc e) s = .next (if s.core.iepm.get e then inXfrcEvent e s else s) := by
  rfl

/-- OEP_XFRC (log 20). -/
theorem exec_oepXfrc (e : Ep) (s : State) : exec (.oepXfrc e) s =
    .next (if s.core.oepm.get e && outXfrcFlag s e then outEvent e false false s else s) := by
  rfl

/-- OEP_STUP (log 20). -/
theorem exec_oepStup (e : Ep) (s : State) : exec (.oepStup e) s =
    .next (if s.core.oepm.get e && outStupFlag s e then outEvent e false false s else s) := by
  rfl

theorem outEvent_only (e : Ep) (x y : Bool) (s : State) : OnlyChanges [.oep, .dout] s (outEvent e x y s) :=
  ((setOep_grows e _ s).trans (setDout_grows e _ _)).only

/-- Settles O36: a row whose flag is set is one completion, and any other row is nothing. -/
theorem completionEvents : Obligations.CompletionEvents := by
  unfold Obligations.CompletionEvents
  intro e s completes outDone inFlag xfrcFlag stupFlag
  have hdone : outDone (outEvent e false false s) := by
    refine ⟨?bank, s.oep.sameBut_set e _, ?desc, s.dout.sameBut_set e _, outEvent_only e _ _ s⟩
    case bank => exact s.oep.get_set_self e _
    case desc =>
      rw [show (outEvent e false false s).dout.get e = _ from s.dout.get_set_self e _]
      exact (s.dout.get e).completed_eq
  have hin : inFlag ↔ (s.core.iepm.get e = true ∧ inXfrcFlag s e = true) := by rw [inXfrcFlag_iff]
  have hxfrc : xfrcFlag ↔ (s.core.oepm.get e && outXfrcFlag s e) = true := by rw [Bool.and_eq_true, outXfrcFlag_iff]
  have hstup : stupFlag ↔ (s.core.oepm.get e && outStupFlag s e) = true := by rw [Bool.and_eq_true, outStupFlag_iff]
  rw [exec_iepXfrc, exec_oepXfrc, exec_oepStup, hin, hxfrc, hstup]
  refine ⟨fun h => ?inEvent, fun h => ?inNothing, fun h => ⟨_, by rw [if_pos h], hdone⟩, fun h => by rw [if_neg h],
    fun h => ⟨_, by rw [if_pos h], hdone⟩, fun h => by rw [if_neg h]⟩
  case inEvent =>
    rw [if_pos h.1, inXfrcEvent_of_flag h.2]
    refine ⟨_, rfl, s.iep.get_set_self e _, s.iep.sameBut_set e _, ?_, s.din.sameBut_set e _,
      ((setIep_grows e _ s).trans (setDin_grows e _ _)).only⟩
    rw [State.setDin_din, State.setIep_din, PerEp.get_set_self]
    exact (s.din.get e).completed_eq
  case inNothing =>
    split
    · next hon => rw [inXfrcEvent_of_not_flag fun hf => h ⟨hon, hf⟩]
    · rfl

/-! ## FIFO empty (42_bus_event_handler R110, 40_fifo_marshaling R93) -/

/-- The bytes of the next chunk of IN endpoint e, whose FIFO is empty: what is left of the request, as far as the FIFO has
room (40_fifo_marshaling R93). -/
def nextChunk (s : State) (e : Ep) : Nat :=
  min ((s.din.get e).req.toNat - (s.din.get e).off.toNat) (4 * (s.core.txfd.get e).toNat)

/-- The descriptor of IN endpoint e with its offset past the next chunk. -/
def chunkMoved (s : State) (e : Ep) : Descriptor :=
  { s.din.get e with off := (s.din.get e).off + BitVec.ofNat 32 (nextChunk s e) }

/-- What "FIFO empty" pushes for IN endpoint e. -/
def chunkWords (s : State) (e : Ep) : List Word :=
  packBytes (s.draws.pad.get e)
    (s.mem.readBytes ((s.din.get e).buf.toNat + (s.din.get e).off.toNat) (nextChunk s e))

theorem chunkWords_carries (s : State) (e : Ep) : Carries (chunkWords s e) (nextChunk s e)
    fun i => s.mem.readByte ((s.din.get e).buf.toNat + (s.din.get e).off.toNat + i) :=
  carries_packBytes _ (Memory.readBytes_length _ _ _) fun i hi => Memory.readBytes_getElem _ _ _ i hi

/-- An offset within its request does not wrap as it moves past the next chunk. -/
theorem chunkMoved_off_toNat {s : State} {e : Ep} (h : (s.din.get e).off.toNat ≤ (s.din.get e).req.toNat) :
    (chunkMoved s e).off.toNat = (s.din.get e).off.toNat + nextChunk s e := by
  have hreq := (s.din.get e).req.isLt
  have hn : nextChunk s e ≤ (s.din.get e).req.toNat - (s.din.get e).off.toNat := Nat.min_le_left _ _
  simp only [chunkMoved, BitVec.toNat_add, BitVec.toNat_ofNat]
  omega

/-- A move of the offset masks FIFO-empty exactly where it reaches the request. -/
theorem advanceDin_eq (e : Ep) (n : Nat) (s : State) :
    advanceDin e n s =
      (s.setDin e { s.din.get e with off := (s.din.get e).off + BitVec.ofNat 32 n }).setCore
        { s.core with txfem := if (s.din.get e).off + BitVec.ofNat 32 n = (s.din.get e).req then
          s.core.txfem.set e false else s.core.txfem } := by
  unfold advanceDin
  by_cases h : (s.din.get e).off + BitVec.ofNat 32 n = (s.din.get e).req
  · simp [h, maskTxfe]
  · simp [h, State.setCore, State.setDin]

theorem inTxfeEvent_of_not_flag {e : Ep} {s : State} (h : ¬ inTxfeFlag s e = true) : inTxfeEvent e s = .go s := by
  unfold inTxfeEvent
  exact if_neg h

theorem inTxfeEvent_of_not_armed {e : Ep} {s : State} (h : inTxfeFlag s e = true) (hd : (s.din.get e).status ≠ .armed) :
    inTxfeEvent e s = .go (maskTxfe e s) := by
  unfold inTxfeEvent
  rw [if_pos h, if_neg (mt (s.din.get e).isArmed_iff.1 hd)]

/-- The state with the next chunk of IN endpoint e pushed, and FIFO-empty masked where that ends the request. -/
def chunkPushed (e : Ep) (s : State) : State :=
  ((s.setTxq e (chunkWords s e)).setDin e (chunkMoved s e)).setCore
    { s.core with txfem := if (chunkMoved s e).off = (s.din.get e).req then s.core.txfem.set e false else s.core.txfem }

theorem chunkPushed_only (e : Ep) (s : State) : OnlyChanges [.din, .txq, .core] s (chunkPushed e s) :=
  (((setTxq_grows e _ s).trans (setDin_grows e _ _)).trans (setCore_grows _ _)).only.mono (by decide)

theorem inTxfeEvent_of_armed {e : Ep} {s : State} (h : inTxfeFlag s e = true) (hd : (s.din.get e).status = .armed)
    (hoff : (s.din.get e).off.toNat ≤ (s.din.get e).req.toNat)
    (hbuf : (s.din.get e).buf.toNat + (s.din.get e).req.toNat ≤ memBytes s.cfg) :
    inTxfeEvent e s = .go (chunkPushed e s) := by
  have hempty : s.txq.get e = [] := ((inTxfeFlag_iff s e).1 h).1
  have hcount : writeCount s e ((s.din.get e).req.toNat - (s.din.get e).off.toNat) = nextChunk s e := by
    rw [writeCount_eq, hempty]
    rfl
  have hn : nextChunk s e ≤ (s.din.get e).req.toNat - (s.din.get e).off.toNat := Nat.min_le_left _ _
  unfold inTxfeEvent
  rw [if_pos h, if_pos ((s.din.get e).isArmed_iff.2 hd)]
  obtain ⟨-, hw⟩ | ⟨hout, -⟩ := writePacket_cases e ((s.din.get e).buf.toNat + (s.din.get e).off.toNat)
    ((s.din.get e).req.toNat - (s.din.get e).off.toNat) s
  · rw [hw, hcount, hempty]
    exact congrArg Ctl.go (advanceDin_eq e _ _)
  · omega

/-- IEP_TXFE: "FIFO empty" of an endpoint whose event class is on (log 20). -/
theorem exec_iepTxfe (e : Ep) (s : State) :
    exec (.iepTxfe e) s = (runIf (s.core.iepm.get e) (inTxfeEvent e) s).outcome := by
  rfl

theorem exec_iepTxfe_of_armed {e : Ep} {s : State} (hon : s.core.iepm.get e = true) (h : inTxfeFlag s e = true)
    (hd : (s.din.get e).status = .armed) (hoff : (s.din.get e).off.toNat ≤ (s.din.get e).req.toNat)
    (hbuf : (s.din.get e).buf.toNat + (s.din.get e).req.toNat ≤ memBytes s.cfg) :
    exec (.iepTxfe e) s = .next (chunkPushed e s) := by
  rw [exec_iepTxfe, hon, runIf_true, inTxfeEvent_of_armed h hd hoff hbuf, Ctl.outcome_go]

/-- Settles O37: a flagged endpoint pushes its next chunk or, with none Armed, masks the interrupt. -/
theorem fifoEmptyEvent : Obligations.FifoEmptyEvent := by
  unfold Obligations.FifoEmptyEvent
  intro e s d flag n off
  have hflag : flag ↔ s.core.iepm.get e = true ∧ inTxfeFlag s e = true := by rw [inTxfeFlag_iff]
  rw [hflag]
  refine ⟨fun h hd hoff hbuf => ⟨_, exec_iepTxfe_of_armed h.1 h.2 hd hoff hbuf, ?desc, chunkMoved_off_toNat hoff,
    s.din.sameBut_set e _, ?words, s.txq.sameBut_set e _, rfl, chunkPushed_only e s⟩, fun h hd => ?masked,
    fun h => ?nothing⟩
  case desc => exact s.din.get_set_self e _
  case words =>
    rw [show (chunkPushed e s).txq.get e = _ from s.txq.get_set_self e _]
    exact chunkWords_carries s e
  case masked =>
    rw [exec_iepTxfe, h.1, runIf_true, inTxfeEvent_of_not_armed h.2 hd]
    exact ⟨_, rfl, rfl, (maskTxfe_grows e s).only⟩
  case nothing =>
    rw [exec_iepTxfe]
    cases hon : s.core.iepm.get e with
    | false => rfl
    | true => rw [runIf_true, inTxfeEvent_of_not_flag fun hf => h ⟨hon, hf⟩, Ctl.outcome_go]

/-! ## A one-packet IN transfer (42_bus_event_handler R110, 45_bus_agent R145) -/

/-- Taking a packet whose words are the whole FIFO logs its bytes, and leaves the FIFO empty. -/
theorem busTake_of_packed {e : Ep} {s : State} {pad : Word} {bs : List Byte} (hq : s.txq.get e = packBytes pad bs)
    (hp : inPacketBytes s e = bs.length) :
    (busTake e s).txq.get e = [] ∧ (busTake e s).busTx = s.busTx ++ [(e, bs)] := by
  have hlen : (packBytes pad bs).length ≤ wordsFor bs.length := (packBytes_length pad bs).le
  have htxq : (busTake e s).txq.get e = (s.txq.get e).drop (wordsFor (inPacketBytes s e)) := s.txq.get_set_self e _
  refine ⟨?_, ?_⟩
  · rw [htxq, hp, hq, List.drop_eq_nil_of_le hlen]
  · simp only [busTake, hp, hq, List.take_of_length_le hlen, unpackWords_packBytes]
    rfl

/-- Settles O48: the chunk is the whole request, so the interrupt is masked and the packet is whole in its FIFO. -/
theorem inPacketCarriesTheBuffer : Obligations.InPacketCarriesTheBuffer := by
  unfold Obligations.InPacketCarriesTheBuffer
  intro s e d b hon hempty htxfem hd hoff hbuf hmps hroom hsiz hcnt husb hepena hnak hstall hginnak hinit hsdis hclk
  have hoff0 : d.off.toNat = 0 := by rw [hoff]; rfl
  have hchunk : nextChunk s e = d.req.toNat := by
    change min (d.req.toNat - d.off.toNat) _ = _
    omega
  have hmoved : (chunkMoved s e).off = d.req := by
    change d.off + BitVec.ofNat 32 (nextChunk s e) = d.req
    rw [hchunk, hoff]
    simp
  have hwords : chunkWords s e = packBytes (s.draws.pad.get e) (s.mem.readBytes d.buf.toNat d.req.toNat) := by
    change packBytes _ (s.mem.readBytes (d.buf.toNat + d.off.toNat) (nextChunk s e)) = _
    rw [hchunk, hoff0, Nat.add_zero]
  have hflag := (inTxfeFlag_iff s e).2 ⟨hempty, htxfem⟩
  have hexec := exec_iepTxfe_of_armed hon hflag hd (hoff0.le.trans (Nat.zero_le _)) hbuf
  have htxq : (chunkPushed e s).txq.get e = packBytes (s.draws.pad.get e) (s.mem.readBytes d.buf.toNat d.req.toNat) :=
    (s.txq.get_set_self e _).trans hwords
  have hbytes : inPacketBytes (chunkPushed e s) e = d.req.toNat := by
    change min (mpsIn s e) b.xfrsiz.toNat = _
    omega
  refine ⟨chunkPushed e s, hexec, ?masked, ?desc, ?enabled, busTake_of_packed htxq (by simp [hbytes])⟩
  case masked =>
    change (if (chunkMoved s e).off = d.req then s.core.txfem.set e false else s.core.txfem).get e = false
    rw [if_pos hmoved, PerEp.get_set_self]
  case desc =>
    rw [show (chunkPushed e s).din.get e = _ from s.din.get_set_self e _]
    exact hmoved
  case enabled =>
    have hbank : (chunkPushed e s).iep.get e = b := rfl
    have hcore : (chunkPushed e s).core.sdis = false ∧ (chunkPushed e s).core.clkgate = false ∧
        (chunkPushed e s).core.ginnak = false := ⟨hsdis, hclk, hginnak⟩
    have hup : (chunkPushed e s).inited = true := hinit
    simp [busEnabled, busUp, takeEnabled, hbank, hcore, hup, husb, hepena, hnak, hstall, hcnt, hbytes, htxq]

end Sys2Proof.Machine

/-! SUPPORT. Proofs of the statements about the receive service and its entries (42_bus_event_handler R108, R109). -/

namespace Sys2Proof.Machine

/-! ## Parts of a step that do not end it early -/

/-- A part of a step that no fault of the spec's ends: it goes on to a state in `P`, or it stops. -/
def Ctl.Goes (P : State → Prop) : Ctl → Prop
  | .go s => P s
  | .ended _ => False
  | .stop _ => True

/-- What a part answers, where it does not end the step early, it goes on to. -/
theorem Ctl.Within.goes {P Q : State → Prop} {c : Ctl} (h : c.Within P) (hg : c.Goes Q) : c.Goes P := by
  cases c with
  | go s => exact h
  | ended s => exact hg.elim
  | stop r => trivial

theorem Ctl.Within.and {P Q : State → Prop} {c : Ctl} (h : c.Within P) (k : c.Within Q) :
    c.Within fun s => P s ∧ Q s := by
  cases c with
  | go s => exact ⟨h, k⟩
  | ended s => exact ⟨h, k⟩
  | stop r => trivial

theorem Ctl.Goes.mono {P Q : State → Prop} {c : Ctl} (h : c.Goes P) (hpq : ∀ s, P s → Q s) : c.Goes Q := by
  cases c with
  | go s => exact hpq s h
  | ended s => exact h.elim
  | stop r => trivial

theorem Ctl.Goes.bind {P Q : State → Prop} {c : Ctl} {f : State → Ctl} (h : c.Goes P)
    (hf : ∀ s, P s → (f s).Goes Q) : (c.bind f).Goes Q := by
  cases c with
  | go s => exact hf s h
  | ended s => exact h.elim
  | stop r => trivial

theorem Ctl.Goes.runIf {P : State → Prop} {b : Bool} {f : State → Ctl} {s : State} (hs : b = false → P s)
    (hf : b = true → (f s).Goes P) : (runIf b f s).Goes P := by
  cases b with
  | false => exact hs rfl
  | true => exact hf rfl

theorem Ctl.Goes.forEps {P : State → Prop} {f : Ep → State → Ctl} (hf : ∀ e s, P s → (f e s).Goes P)
    (es : List Ep) {s : State} (hs : P s) : (forEps es f s).Goes P := by
  induction es generalizing s with
  | nil => exact hs
  | cons e es ih => exact (hf e s hs).bind fun t ht => ih ht

theorem Ctl.Goes.outcome {P : State → Prop} {c : Ctl} {t : State} (h : c.Goes P) (ht : c.outcome = .next t) : P t := by
  cases c with
  | go s => cases ht; exact h
  | ended s => exact h.elim
  | stop r => cases ht

/-! ## Entries that are dropped, and the flags of the others (42_bus_event_handler R109) -/

theorem dumpPacket_go {size : Nat} {s : State} (h : wordsFor size ≤ s.rxq.length) :
    dumpPacket size s = .go (s.setRxq (s.rxq.drop (wordsFor size))) := by
  obtain ⟨-, hd⟩ | ⟨hlt, -⟩ := dumpPacket_cases size s
  · exact hd
  · omega

/-- An endpoint number of four bits names an endpoint of the block, or one of 8 to 15, which do not exist (R108). -/
theorem epOfNum_cases (n : BitVec 4) :
    (∃ e : Ep, n.toNat = e.val ∧ epOfNum n = some e) ∨ ((∀ e : Ep, n.toNat ≠ e.val) ∧ epOfNum n = none) := by
  unfold epOfNum
  by_cases h : n.toNat < 8
  · exact .inl ⟨⟨n.toNat, h⟩, rfl, dif_pos h⟩
  · exact .inr ⟨fun e he => h (he ▸ e.isLt), dif_neg h⟩

/-- A bank written at the endpoint that `n` names is the only one that changes. -/
theorem PerEp.get_set_named {α : Type} (t : PerEp α) {n : BitVec 4} {k : Ep} (hk : n.toNat = k.val) (a : Ep → α) (e : Ep) :
    (t.set k (a k)).get e = if n.toNat = e.val then a e else t.get e := by
  rw [PerEp.get_set, hk]
  by_cases h : e = k
  · rw [if_pos h, if_pos (h ▸ rfl), h]
  · rw [if_neg h, if_neg fun hv => h (Fin.ext hv.symm)]

theorem popXferDone_oep (n : BitVec 4) (s : State) (e : Ep) : (popXferDone n s).oep.get e =
    if n.toNat = e.val then { s.oep.get e with xfrc := true } else s.oep.get e := by
  unfold popXferDone
  obtain ⟨k, hk, h⟩ | ⟨hnone, h⟩ := epOfNum_cases n <;> rw [h]
  · exact s.oep.get_set_named hk (fun e => { s.oep.get e with xfrc := true }) e
  · rw [if_neg (hnone e)]

theorem popSetupDone_oep (n : BitVec 4) (s : State) (e : Ep) : (popSetupDone n s).oep.get e =
    if n.toNat = e.val then { s.oep.get e with stup := true } else s.oep.get e := by
  unfold popSetupDone
  obtain ⟨k, hk, h⟩ | ⟨hnone, h⟩ := epOfNum_cases n <;> rw [h]
  · exact s.oep.get_set_named hk (fun e => { s.oep.get e with stup := true }) e
  · rw [if_neg (hnone e)]

/-- The entries that are dropped, after a write of the OUT banks alone. -/
theorem dumpPacket_after {size : Nat} {s u : State} (hu : Grows [.oep] s u) (h : wordsFor size ≤ s.rxq.length) :
    ∃ t, dumpPacket size u = .go t ∧ t.rxq = s.rxq.drop (wordsFor size) ∧ t.oep = u.oep ∧
      OnlyChanges [.rxq, .oep] s t := by
  have hrxq : u.rxq = s.rxq := hu.only .rxq (by decide)
  refine ⟨_, dumpPacket_go (hrxq.symm ▸ h), by rw [State.setRxq_rxq, hrxq], rfl, ?_⟩
  exact (hu.trans (setRxq_grows _ u)).only.mono (by decide)

/-- RX_GLOBAL_OUT_NAK (42_bus_event_handler R109). -/
theorem exec_rxGlobalOutNak (epnum : BitVec 4) (bcnt : BitVec 11) (dpid : BitVec 2) (frm : BitVec 4) (s : State) :
    exec (.rxGlobalOutNak epnum bcnt dpid frm) s = (dumpPacket bcnt.toNat s).outcome := by
  rfl

/-- RX_OUT_XFER_DONE (42_bus_event_handler R109). -/
theorem exec_rxOutXferDone (epnum : BitVec 4) (bcnt : BitVec 11) (dpid : BitVec 2) (frm : BitVec 4) (s : State) :
    exec (.rxOutXferDone epnum bcnt dpid frm) s = (dumpPacket bcnt.toNat (popXferDone epnum s)).outcome := by
  rfl

/-- RX_SETUP_DONE (42_bus_event_handler R109). -/
theorem exec_rxSetupDone (epnum : BitVec 4) (bcnt : BitVec 11) (dpid : BitVec 2) (frm : BitVec 4) (s : State) :
    exec (.rxSetupDone epnum bcnt dpid frm) s = (dumpPacket bcnt.toNat (popSetupDone epnum s)).outcome := by
  rfl

/-- Settles O35: the three kinds are the dump of the entry's words, two of them after their flag is set. -/
theorem otherEntriesRaiseTheirFlag : Obligations.OtherEntriesRaiseTheirFlag := by
  unfold Obligations.OtherEntriesRaiseTheirFlag
  intro epnum bcnt dpid frm s h drops
  rw [exec_rxGlobalOutNak, exec_rxOutXferDone, exec_rxSetupDone]
  refine ⟨?nak, ?xferDone, ?setupDone⟩
  case nak =>
    rw [dumpPacket_go h]
    exact ⟨_, rfl, rfl, (setRxq_grows _ s).only⟩
  case xferDone =>
    obtain ⟨t, ht, hrxq, hoep, honly⟩ := dumpPacket_after (popXferDone_grows epnum s) h
    exact ⟨t, by rw [ht, Ctl.outcome_go], hrxq, honly, fun e => by rw [hoep, popXferDone_oep]⟩
  case setupDone =>
    obtain ⟨t, ht, hrxq, hoep, honly⟩ := dumpPacket_after (popSetupDone_grows epnum s) h
    exact ⟨t, by rw [ht, Ctl.outcome_go], hrxq, honly, fun e => by rw [hoep, popSetupDone_oep]⟩

/-! ## Data entries (42_bus_event_handler R108) -/

theorem keptBytes_of_room {d : Descriptor} (bcnt : Nat) (hd : d.status = .armed) (hroom : d.off.toNat < d.req.toNat) :
    keptBytes d bcnt = some (min bcnt (d.req.toNat - d.off.toNat)) := by
  unfold keptBytes
  exact if_pos ⟨d.isArmed_iff.2 hd, hroom⟩

theorem keptBytes_of_no_room {d : Descriptor} (bcnt : Nat) (h : d.status ≠ .armed ∨ d.req.toNat ≤ d.off.toNat) :
    keptBytes d bcnt = none := by
  unfold keptBytes
  refine if_neg fun ⟨harmed, hroom⟩ => ?_
  obtain h | h := h
  · exact h (d.isArmed_iff.1 harmed)
  · omega

theorem receiveData_of_kept {epnum : BitVec 4} {bcnt : BitVec 11} {e : Ep} {n : Nat} {s : State} (he : epnum.toNat = e.val)
    (hk : keptBytes (s.dout.get e) bcnt.toNat = some n) : receiveData epnum bcnt s = keepData e bcnt.toNat n s := by
  simp only [receiveData, epOfNum_eq he, hk]

theorem receiveData_of_dropped {epnum : BitVec 4} (bcnt : BitVec 11) {s : State}
    (h : ∀ e : Ep, epnum.toNat = e.val → keptBytes (s.dout.get e) bcnt.toNat = none) :
    receiveData epnum bcnt s = dumpPacket bcnt.toNat s := by
  obtain ⟨e, he, hn⟩ | ⟨-, hn⟩ := epOfNum_cases epnum
  · simp only [receiveData, hn, h e he]
  · simp only [receiveData, hn]

/-- The rows of OUT and of SETUP data are one operation (42_bus_event_handler R108, D33). -/
theorem exec_dataEntry {epnum : BitVec 4} {bcnt : BitVec 11} {dpid : BitVec 2} {frm : BitVec 4} {i : Instr}
    (hi : i ∈ [Instr.rxOutData epnum bcnt dpid frm, Instr.rxSetupData epnum bcnt dpid frm]) (s : State) :
    exec i s = (receiveData epnum bcnt s).outcome := by
  simp only [List.mem_cons, List.not_mem_nil, or_false] at hi
  obtain rfl | rfl := hi
  · rfl
  · rfl

/-- What a kept entry leaves: the kept bytes in the buffer, the offset past them, and the entry's words consumed. -/
theorem keepData_effect {e : Ep} {bcnt n : Nat} {s : State} (hm : MemOk s) (hn : n ≤ bcnt)
    (hq : wordsFor bcnt ≤ s.rxq.length)
    (hfits : (s.dout.get e).buf.toNat + (s.dout.get e).off.toNat + n ≤ memBytes s.cfg) :
    ∃ t, keepData e bcnt n s = .go t ∧ t.rxq = s.rxq.drop (wordsFor bcnt) ∧
      (∀ m, m < n → ∃ w, s.rxq[m / 4]? = some w ∧
        t.mem.readByte ((s.dout.get e).buf.toNat + (s.dout.get e).off.toNat + m) = byteAt w (m % 4)) ∧
      SameOutside ((s.dout.get e).buf.toNat + (s.dout.get e).off.toNat) n s t ∧
      t.dout = s.dout.set e { s.dout.get e with off := (s.dout.get e).off + BitVec.ofNat 32 n } ∧
      OnlyChanges [.rxq, .mem, .dout] s t := by
  refine ⟨_, keepData_eq e bcnt n s hn hq hfits, rfl, fun m hmn => ?bytes, fun j hj => ?outside, rfl, ?frame⟩
  case bytes =>
    have hlt := div_four_lt_wordsFor hmn
    have hlen : m / 4 < s.rxq.length := (hlt.trans_le (wordsFor_mono hn)).trans_le hq
    have hword : s.rxq[m / 4]? = some s.rxq[m / 4] := List.getElem?_eq_getElem hlen
    refine ⟨_, hword, Memory.readByte_writeBytes_unpackWords hm hfits hmn ?_⟩
    rwa [List.getElem?_take_of_lt hlt]
  case outside => exact Memory.readByte_writeBytes_unpackWords_of_outside hm hfits (by omega)
  case frame =>
    exact (((setMem_grows _ s).trans (setDout_grows e _ _)).trans (setRxq_grows _ _)).only.mono (by decide)

/-- Settles O34: what an Armed descriptor with room keeps is one `keepData`, and any other entry is dumped. -/
theorem dataEntryKeptOrDumped : Obligations.DataEntryKeptOrDumped := by
  unfold Obligations.DataEntryKeptOrDumped
  intro epnum bcnt dpid frm s hm hq i hi
  rw [exec_dataEntry hi]
  refine ⟨?kept, fun h => ?dropped⟩
  case kept =>
    intro e he hd hroom hbuf d n
    change d.off.toNat < d.req.toNat at hroom
    change d.buf.toNat + d.req.toNat ≤ memBytes s.cfg at hbuf
    have hleft : n ≤ d.req.toNat - d.off.toNat := Nat.min_le_right _ _
    have hfits : d.buf.toNat + d.off.toNat + n ≤ memBytes s.cfg := by omega
    obtain ⟨t, ht, hrxq, hbytes, hout, hdout, honly⟩ := keepData_effect hm (Nat.min_le_left _ _) hq hfits
    have hdesc : t.dout.get e = { d with off := d.off + BitVec.ofNat 32 n } := by rw [hdout, PerEp.get_set_self]
    refine ⟨t, ?_, hrxq, hbytes, hout, hdesc, ?_, hdout ▸ s.dout.sameBut_set e _, honly⟩
    · rw [receiveData_of_kept he (keptBytes_of_room _ hd hroom), ht, Ctl.outcome_go]
    · have hreq := d.req.isLt
      rw [hdesc]
      simp only [BitVec.toNat_add, BitVec.toNat_ofNat]
      omega
  case dropped =>
    rw [receiveData_of_dropped bcnt fun e he => keptBytes_of_no_room _ (h e he), dumpPacket_go hq]
    exact ⟨_, rfl, rfl, (setRxq_grows _ s).only⟩

/-! ## The receive service (42_bus_event_handler R108) -/

/-- SVC_RXFLVL (42_bus_event_handler R108). -/
theorem exec_svcRxflvl (s : State) : exec .svcRxflvl s = (receiveService s).outcome := by
  rfl

theorem receiveService_of_nil {s : State} (h : s.rxq = []) : receiveService s = .go s := by
  simp only [receiveService, h]

theorem receiveService_of_cons {s : State} {w : Word} {q : List Word} (h : s.rxq = w :: q) :
    receiveService s = receiveEntry w (s.setRxq q) := by
  simp only [receiveService, h]

theorem rxBcnt_toNat (w : Word) : (rxBcnt w).toNat = w.toNat / 2 ^ 4 % 2 ^ 11 := extractLsb'_toNat_div w 4 11

theorem keepData_goes {e : Ep} {bcnt n : Nat} {s : State} (hn : n ≤ bcnt) (hq : wordsFor bcnt ≤ s.rxq.length) :
    (keepData e bcnt n s).Goes fun _ => True := by
  by_cases hsp : (s.dout.get e).buf.toNat + (s.dout.get e).off.toNat + n ≤ memBytes s.cfg
  · rw [keepData_eq e bcnt n s hn hq hsp]
    trivial
  · unfold keepData
    obtain ⟨-, hr⟩ | ⟨hle, -⟩ | ⟨hle, -⟩ :=
      readPacket_cases ((s.dout.get e).buf.toNat + (s.dout.get e).off.toNat) n s
    · rw [hr]
      trivial
    · exact absurd hle hsp
    · exact absurd hle hsp

theorem receiveData_goes (epnum : BitVec 4) {bcnt : BitVec 11} {s : State} (hq : wordsFor bcnt.toNat ≤ s.rxq.length) :
    (receiveData epnum bcnt s).Goes fun _ => True := by
  unfold receiveData
  split
  · rw [dumpPacket_go hq]
    trivial
  split
  · rw [dumpPacket_go hq]
    trivial
  · next hk => exact keepData_goes (keptBytes_le hk) hq

/-- An entry that is whole never ends the step by an underflow (20_memory R61). -/
theorem receiveEntry_goes {w : Word} {s : State} (hq : wordsFor (rxBcnt w).toNat ≤ s.rxq.length) :
    (receiveEntry w s).Goes fun _ => True := by
  have hdump : ∀ {u}, Grows [.oep] s u → (dumpPacket (rxBcnt w).toNat u).Goes fun _ => True := fun {u} hu => by
    obtain ⟨t, ht, -⟩ := dumpPacket_after hu hq
    rw [ht]
    trivial
  unfold receiveEntry
  split
  · exact receiveData_goes _ hq
  split
  · exact hdump (popXferDone_grows _ s)
  split
  · exact hdump (popSetupDone_grows _ s)
  · exact hdump (.refl _ s)

theorem receiveService_goes {s : State} (hf : Framed s.rxq) : (receiveService s).Goes fun _ => True := by
  unfold receiveService
  split
  · trivial
  · next w q hq => exact receiveEntry_goes (hq ▸ hf).uncons.1

/-- On whole entries the service leaves whole entries and records no fault (20_memory R61). -/
theorem receiveService_framed {s : State} (hf : Framed s.rxq) :
    (receiveService s).Goes fun t => Framed t.rxq ∧ t.fault = s.fault ∧ OnlyChanges [.rxq, .mem, .dout, .oep] s t := by
  have hrun : (receiveService s).Within fun t => Framed t.rxq ∧ t.fault = s.fault := by
    unfold receiveService
    split
    · exact ⟨hf, rfl⟩
    · next w q hq =>
      obtain ⟨hlen, hrest⟩ := (hq ▸ hf).uncons
      refine (receiveEntry_consumes (s := s.setRxq q) hlen).mono fun t ⟨hrxq, hfault⟩ => ⟨?_, hfault⟩
      rw [hrxq]
      exact hrest
  refine ((hrun.and (receiveService_drainsRx s)).goes (receiveService_goes hf)).mono fun t ⟨⟨ht, hfault⟩, hd⟩ =>
    ⟨ht, hfault, fun p hp => ?frame⟩
  case frame =>
    by_cases hpf : p = .fault
    · exact hpf ▸ hfault
    · exact hd.grows.only p (by simp_all)

/-- Settles O33: the service pops the head and is its entry; whole entries and sound descriptors let it complete. -/
theorem receiveServiceRunsHeadEntry : Obligations.ReceiveServiceRunsHeadEntry := by
  unfold Obligations.ReceiveServiceRunsHeadEntry
  refine ⟨fun s h => ?empty, fun s w q h => ?head, fun s hf hd => ?completes⟩
  case empty => rw [exec_svcRxflvl, receiveService_of_nil h, Ctl.outcome_go]
  case head =>
    rw [exec_svcRxflvl, receiveService_of_cons h, ← rxBcnt_toNat]
    exact receiveEntry_outcome w (s.setRxq q)
  case completes =>
    obtain ⟨t, ht⟩ := (receiveService_ends hd).next
    exact ⟨t, ht, (receiveService_framed hf).outcome ht⟩

end Sys2Proof.Machine

/-! SUPPORT. Proof of the statement about the endpoint services (42_bus_event_handler R104, R110, R111): each endpoint's
outcome is a function of its own part of the state, which no other endpoint's service touches. -/

namespace Sys2Proof.Machine

/-! ## The rows of an IN endpoint, one after the other (42_bus_event_handler R110) -/

/-- "transfer complete" is due on IN endpoint e: flagged, and its event class on (10_state R34). -/
def xfrcDue (s : State) (e : Ep) : Bool := s.core.iepm.get e && inXfrcFlag s e

/-- "FIFO empty" is due on IN endpoint e (10_state R34). -/
def txfeDue (s : State) (e : Ep) : Bool := s.core.iepm.get e && inTxfeFlag s e

/-- "FIFO empty" of IN endpoint e finds its descriptor Armed: "transfer complete" did not complete it before. -/
def chunkDue (s : State) (e : Ep) : Bool := txfeDue s e && (!xfrcDue s e && (s.din.get e).isArmed)

theorem xfrcDue_iff (s : State) (e : Ep) : xfrcDue s e = true ↔
    s.core.iepm.get e = true ∧ (s.iep.get e).xfrc = true ∧ s.core.diepmskXfrcm = true := by
  rw [xfrcDue, Bool.and_eq_true, inXfrcFlag_iff]

theorem txfeDue_iff (s : State) (e : Ep) : txfeDue s e = true ↔
    s.core.iepm.get e = true ∧ s.txq.get e = [] ∧ s.core.txfem.get e = true := by
  rw [txfeDue, Bool.and_eq_true, inTxfeFlag_iff]

theorem chunkDue_of_armed {s : State} {e : Ep} (ht : txfeDue s e = true) (hx : ¬ xfrcDue s e = true)
    (hd : (s.din.get e).status = .armed) : chunkDue s e = true := by
  simp [chunkDue, ht, hx, (s.din.get e).isArmed_iff.2 hd]

theorem chunkDue_of_not_armed {s : State} {e : Ep} (h : xfrcDue s e = true ∨ (s.din.get e).status ≠ .armed) :
    chunkDue s e = false := by
  obtain hx | hd := h
  · simp [chunkDue, hx]
  · simp [chunkDue, (s.din.get e).not_isArmed_iff.2 hd]

/-- The service of an endpoint is its two rows: neither does anything where its flag is not set. -/
theorem inEndpoint_eq_rows (e : Ep) (s : State) : inEndpoint e s =
    runIf (s.core.iepm.get e) (inTxfeEvent e) (if s.core.iepm.get e then inXfrcEvent e s else s) := by
  unfold inEndpoint inPending
  cases hon : s.core.iepm.get e with
  | false => rfl
  | true =>
    by_cases hpending : (inXfrcFlag s e || inTxfeFlag s e) = true
    · simp [hpending]
    · have hnone : ¬ inXfrcFlag s e = true ∧ ¬ inTxfeFlag s e = true := by simpa using hpending
      simp [hpending, inXfrcEvent_of_not_flag hnone.1, inTxfeEvent_of_not_flag hnone.2]

theorem Descriptor.completed_not_armed (d : Descriptor) : d.completed.status ≠ .armed := by
  by_cases hd : d.status = .armed
  · simp [d.completed_eq.1 hd]
  · rwa [d.completed_eq.2 hd]

/-! ## One IN endpoint -/

/-- The bank of IN endpoint e after its service. -/
def inBankServed (s : State) (e : Ep) : InBank := if xfrcDue s e then { s.iep.get e with xfrc := false } else s.iep.get e

/-- The descriptor of IN endpoint e after its service. -/
def dinServed (s : State) (e : Ep) : Descriptor :=
  if xfrcDue s e then (s.din.get e).completed else if chunkDue s e then chunkMoved s e else s.din.get e

/-- The transmit FIFO of IN endpoint e after its service. -/
def txqServed (s : State) (e : Ep) : List Word := if chunkDue s e then chunkWords s e else s.txq.get e

/-- The FIFO-empty mask bit of IN endpoint e after its service. -/
def txfemServed (s : State) (e : Ep) : Bool :=
  if chunkDue s e then (if (chunkMoved s e).off = (s.din.get e).req then false else s.core.txfem.get e)
  else s.core.txfem.get e && !txfeDue s e

/-- The state after the service of IN endpoint e. -/
def inServed (e : Ep) (s : State) : State :=
  { s with
    iep := s.iep.set e (inBankServed s e)
    din := s.din.set e (dinServed s e)
    txq := s.txq.set e (txqServed s e)
    core := { s.core with txfem := s.core.txfem.set e (txfemServed s e) } }

/-- The service of an endpoint whose event class is on, on sound descriptors: an endpoint that "transfer complete" served
has nothing Armed left. -/
theorem inEndpoint_of_on {e : Ep} {s : State} (hs : DescsOk s) (hon : s.core.iepm.get e = true) : inEndpoint e s =
    .go (if inXfrcFlag s e then (if inTxfeFlag s e then maskTxfe e (inXfrcEvent e s) else inXfrcEvent e s)
      else if inTxfeFlag s e then (if (s.din.get e).isArmed then chunkPushed e s else maskTxfe e s) else s) := by
  have hflag : inTxfeFlag (inXfrcEvent e s) e = inTxfeFlag s e := by
    have hgrows := inXfrcEvent_grows e s
    simp only [inTxfeFlag, txfe, show _ = s.txq from hgrows.only .txq (by decide),
      show _ = s.core from hgrows.only .core (by decide)]
  rw [inEndpoint_eq_rows, hon, runIf_true, if_pos rfl]
  by_cases hx : inXfrcFlag s e = true
  · rw [if_pos hx]
    by_cases ht : inTxfeFlag s e = true
    · have hidle : ((inXfrcEvent e s).din.get e).status ≠ .armed := by
        rw [inXfrcEvent_of_flag hx, State.setDin_din, PerEp.get_set_self]
        exact (s.din.get e).completed_not_armed
      rw [if_pos ht, inTxfeEvent_of_not_armed (hflag.trans ht) hidle]
    · rw [if_neg ht, inTxfeEvent_of_not_flag (hflag ▸ ht)]
  · rw [if_neg hx, inXfrcEvent_of_not_flag hx]
    by_cases ht : inTxfeFlag s e = true
    · rw [if_pos ht]
      by_cases hd : (s.din.get e).status = .armed
      · obtain ⟨hoff, -, hbuf⟩ := (hs e).1.1 hd
        rw [if_pos ((s.din.get e).isArmed_iff.2 hd), inTxfeEvent_of_armed ht hd hoff hbuf]
      · rw [if_neg (mt (s.din.get e).isArmed_iff.1 hd), inTxfeEvent_of_not_armed ht hd]
    · rw [if_neg ht, inTxfeEvent_of_not_flag ht]

/-- One value that is written only where a condition holds. -/
theorem PerEp.ite_set {α : Type} (t : PerEp α) (e : Ep) (a : α) (p : Prop) [Decidable p] :
    (if p then t.set e a else t) = t.set e (if p then a else t.get e) := by
  by_cases hp : p
  · rw [if_pos hp, if_pos hp]
  · rw [if_neg hp, if_neg hp, PerEp.set_get_self]

/-- On sound descriptors the service of an endpoint completes, with what its own flags decide (42_bus_event_handler
R110). -/
theorem inEndpoint_eq {e : Ep} {s : State} (hs : DescsOk s) : inEndpoint e s = .go (inServed e s) := by
  cases hon : s.core.iepm.get e with
  | false => simp [inEndpoint, inPending, inServed, inBankServed, dinServed, txqServed, txfemServed, chunkDue, xfrcDue,
      txfeDue, hon]
  | true =>
    rw [inEndpoint_of_on hs hon]
    congr 1
    split_ifs with hx ht ht ha
    all_goals simp [inServed, inBankServed, dinServed, txqServed, txfemServed, chunkDue, xfrcDue, txfeDue, inXfrcEvent,
      maskTxfe, chunkPushed, PerEp.ite_set, State.setIep, State.setTxq, State.setDin, State.setCore, *]

/-! ## The loop over the IN endpoints (42_bus_event_handler R104) -/

/-- Only what the InEndpoint service may write differs. -/
def InServiceOnly (s t : State) : Prop :=
  t = { s with iep := t.iep, din := t.din, txq := t.txq, core := { s.core with txfem := t.core.txfem } }

theorem InServiceOnly.trans {s t u : State} (h : InServiceOnly s t) (k : InServiceOnly t u) : InServiceOnly s u :=
  Eq.trans k (by rw [h])

/-- Endpoint e has in `t` the bank, descriptor, transmit FIFO and mask bit that it has in `u`. -/
structure InMatches (e : Ep) (t u : State) : Prop where
  iep : t.iep.get e = u.iep.get e
  din : t.din.get e = u.din.get e
  txq : t.txq.get e = u.txq.get e
  txfem : t.core.txfem.get e = u.core.txfem.get e

theorem InMatches.refl (e : Ep) (s : State) : InMatches e s s := ⟨rfl, rfl, rfl, rfl⟩

theorem InMatches.trans {e : Ep} {s t u : State} (h : InMatches e s t) (k : InMatches e t u) : InMatches e s u :=
  ⟨h.iep.trans k.iep, h.din.trans k.din, h.txq.trans k.txq, h.txfem.trans k.txfem⟩

theorem inServed_only (e : Ep) (s : State) : InServiceOnly s (inServed e s) := rfl

theorem inServed_other {e k : Ep} (s : State) (hk : k ≠ e) : InMatches k (inServed e s) s :=
  ⟨s.iep.get_set_of_ne e k _ hk, s.din.get_set_of_ne e k _ hk, s.txq.get_set_of_ne e k _ hk,
    s.core.txfem.get_set_of_ne e k _ hk⟩

/-- What a service leaves at an endpoint is decided by the endpoint's own part of the state. -/
theorem inServed_congr {e : Ep} {s u : State} (hu : InServiceOnly s u) (h : InMatches e u s) :
    InMatches e (inServed e u) (inServed e s) := by
  obtain ⟨hiep, hdin, htxq, htxfem⟩ := h
  have hiepm : u.core.iepm = s.core.iepm := by rw [hu]
  have hmsk : u.core.diepmskXfrcm = s.core.diepmskXfrcm := by rw [hu]
  have htxfd : u.core.txfd = s.core.txfd := by rw [hu]
  have hmem : u.mem = s.mem := by rw [hu]
  have hdraws : u.draws = s.draws := by rw [hu]
  have hx : xfrcDue u e = xfrcDue s e := by simp only [xfrcDue, inXfrcFlag, hiepm, hmsk, hiep]
  have ht : txfeDue u e = txfeDue s e := by simp only [txfeDue, inTxfeFlag, txfe, hiepm, htxq, htxfem]
  have hc : chunkDue u e = chunkDue s e := by simp only [chunkDue, hx, ht, hdin]
  have hn : nextChunk u e = nextChunk s e := by simp only [nextChunk, hdin, htxfd]
  have hm : chunkMoved u e = chunkMoved s e := by simp only [chunkMoved, hdin, hn]
  have hw : chunkWords u e = chunkWords s e := by simp only [chunkWords, hdin, hn, hmem, hdraws]
  constructor <;> simp [inServed, inBankServed, dinServed, txqServed, txfemServed, hx, ht, hc, hm, hw, hiep, hdin, htxq,
    htxfem]

/-- The loop serves each of its endpoints as if it were alone, and leaves the others. -/
theorem forEps_inEndpoint {es : List Ep} (hn : es.Nodup) {s : State} (hs : DescsOk s) :
    ∃ t, forEps es inEndpoint s = .go t ∧ InServiceOnly s t ∧ (∀ e, e ∉ es → InMatches e t s) ∧
      ∀ e ∈ es, InMatches e t (inServed e s) := by
  induction es generalizing s with
  | nil => exact ⟨s, rfl, rfl, fun e _ => .refl e s, fun e he => by simp at he⟩
  | cons a es ih =>
    obtain ⟨ha, hn⟩ := List.nodup_cons.1 hn
    have hends := inEndpoint_ends a s hs
    rw [inEndpoint_eq hs] at hends
    obtain ⟨t, ht, honly, hout, hin⟩ := ih hn hends
    refine ⟨t, by rw [forEps_cons, inEndpoint_eq hs, Ctl.bind_go, ht], (inServed_only a s).trans honly,
      fun e he => ?_, fun e he => ?_⟩
    · obtain ⟨hea, hes⟩ := not_or.1 (mt List.mem_cons.2 he)
      exact (hout e hes).trans (inServed_other s hea)
    · obtain rfl | he := List.mem_cons.1 he
      · exact hout e ha
      · have hea : e ≠ a := fun h => ha (h ▸ he)
        exact (hin e he).trans (inServed_congr (inServed_only a s) (inServed_other s hea))

theorem inService_effect {s : State} (hs : DescsOk s) :
    ∃ t, inService s = .go t ∧ InServiceOnly s t ∧ ∀ e, InMatches e t (inServed e s) := by
  obtain ⟨t, ht, honly, -, hin⟩ := forEps_inEndpoint (es := allEps) (by decide) hs
  exact ⟨t, ht, honly, fun e => hin e (mem_allEps e)⟩

/-! ## The statement -/

/-- SVC_IEPINT (42_bus_event_handler R110). -/
theorem exec_svcIepint (s : State) : exec .svcIepint s = (inService s).outcome := by
  rfl

/-- SVC_OEPINT (42_bus_event_handler R111). -/
theorem exec_svcOepint (s : State) : exec .svcOepint s = (outService s.oep s).outcome := by
  rfl

theorem outPending_iff (s : State) (e : Ep) : outPending s e = true ↔ s.core.oepm.get e = true ∧
    (((s.oep.get e).xfrc = true ∧ s.core.doepmskXfrcm = true) ∨
      ((s.oep.get e).stup = true ∧ s.core.doepmskStupm = true)) := by
  simp [outPending, outXfrcFlag, outStupFlag]

/-- An endpoint whose bank is as it was sampled is serviced where it is flagged. -/
theorem outPendingSince_self (s : State) (e : Ep) : outPendingSince (s.oep.get e) s e = outPending s e := by
  unfold outPendingSince outPending outXfrcFlag outStupFlag
  cases (s.oep.get e).xfrc <;> cases (s.oep.get e).stup <;> simp

theorem inServiceOnly_onlyChanges {s t : State} (h : InServiceOnly s t) : OnlyChanges [.iep, .din, .txq, .core] s t := by
  intro p hp
  rw [h]
  cases p <;> simp_all [Same]

/-- Settles O38: each endpoint is served as if it were alone. -/
theorem endpointServicesPerEndpoint : Obligations.EndpointServicesPerEndpoint := by
  unfold Obligations.EndpointServicesPerEndpoint
  refine ⟨fun s hs => ?inn, fun s => ?out⟩
  case inn =>
    obtain ⟨t, ht, honly, hat⟩ := inService_effect hs
    refine ⟨t, by rw [exec_svcIepint, ht, Ctl.outcome_go], congrArg State.core honly, inServiceOnly_onlyChanges honly,
      fun e => ?_⟩
    obtain ⟨hiep, hdin, htxq, htxfem⟩ := hat e
    rw [show (inServed e s).iep.get e = _ from s.iep.get_set_self e _] at hiep
    rw [show (inServed e s).din.get e = _ from s.din.get_set_self e _] at hdin
    rw [show (inServed e s).txq.get e = _ from s.txq.get_set_self e _] at htxq
    rw [show (inServed e s).core.txfem.get e = _ from s.core.txfem.get_set_self e _] at htxfem
    have hcomp := (s.din.get e).completed_eq
    simp only [← xfrcDue_iff, ← txfeDue_iff]
    refine ⟨fun hx => ?_, fun hx => ?_, fun hx hd => ?_, fun hd => ?_, fun hx ht hd => ⟨?_, ?_, ?_⟩,
      fun ht h => ⟨?_, ?_⟩, fun ht => ⟨?_, ?_⟩, fun hx ht => ?_⟩
    · simp [hiep, inBankServed, hx]
    · simp [hiep, inBankServed, hx]
    · simp [hdin, dinServed, hx, hcomp.1 hd]
    · simp [hdin, dinServed, chunkDue, (s.din.get e).not_isArmed_iff.2 hd, hcomp.2 hd]
    · have hc := chunkDue_of_armed ht hx hd
      simp [hdin, dinServed, hx, hc, chunkMoved, nextChunk]
    · have hc := chunkDue_of_armed ht hx hd
      rw [htxq, txqServed, hc]
      exact chunkWords_carries s e
    · have hc := chunkDue_of_armed ht hx hd
      simp [htxfem, txfemServed, hc, ((txfeDue_iff s e).1 ht).2.2, chunkMoved, nextChunk]
    · have hc := chunkDue_of_not_armed h
      simp [htxq, txqServed, hc, ((txfeDue_iff s e).1 ht).2.1]
    · have hc := chunkDue_of_not_armed h
      simp [htxfem, txfemServed, hc, ht]
    · simp [htxq, txqServed, chunkDue, ht]
    · simp [htxfem, txfemServed, chunkDue, ht]
    · simp [hdin, dinServed, chunkDue, hx, ht]
  case out =>
    obtain ⟨t, ht, honly, hat⟩ := outService_effect s.oep s
    refine ⟨t, by rw [exec_svcOepint, ht, Ctl.outcome_go], fun p hp => ?frame, fun e => ?endpoint⟩
    case frame =>
      rw [honly]
      clear honly
      cases p <;> simp_all [Same]
    case endpoint =>
      obtain ⟨hnot, hdue⟩ := hat e
      have hcomp := (s.dout.get e).completed_eq
      simp only [Bool.and_not_self] at hdue
      rw [outPendingSince_self] at hnot hdue
      simp only [← outPending_iff, Bool.not_eq_true]
      refine ⟨fun h => (hdue h).1, fun h => (hnot h).1, fun h hd => (hdue h).2.trans (hcomp.1 hd), fun h => ?_⟩
      cases hp : outPending s e with
      | false => exact (hnot hp).2
      | true => exact (hdue hp).2.trans (hcomp.2 (h.resolve_left (by simp [hp])))

end Sys2Proof.Machine

/-! SUPPORT. Proofs of the statements about an iteration of the dispatcher (42_bus_event_handler R103, R104, R106, R109,
R112, 60_exceptions R157): it is the rows that the sampled status selects, and what it emits and completes. -/

namespace Sys2Proof.Machine

/-! ## Rows one after another -/

theorem execAll_cons {i : Instr} {is : List Instr} {s t : State} (h : exec i s = .next t) :
    execAll (i :: is) s = execAll is t := by
  simp only [execAll, h]

theorem execAll_singleton (i : Instr) (s : State) : execAll [i] s = exec i s := by
  simp only [execAll]
  cases exec i s <;> rfl

theorem execAll_append_of_next {is js : List Instr} {s t : State} (h : execAll is s = .next t) :
    execAll (is ++ js) s = execAll js t := by
  induction is generalizing s with
  | nil => cases h; rfl
  | cons i is ih =>
    cases hi : exec i s with
    | next u =>
      rw [execAll_cons hi] at h
      rw [List.cons_append, execAll_cons hi, ih h]
    | fault f => simp [execAll, hi] at h
    | refused r => simp [execAll, hi] at h

theorem execAll_append_of_fault {is js : List Instr} {s : State} {f : Fault} (h : execAll is s = .fault f) :
    execAll (is ++ js) s = .fault f := by
  induction is generalizing s with
  | nil => cases h
  | cons i is ih =>
    cases hi : exec i s with
    | next u =>
      rw [execAll_cons hi] at h
      rw [List.cons_append, execAll_cons hi, ih h]
    | fault g =>
      have hstop : execAll (i :: is ++ js) s = execAll (i :: is) s := by simp only [List.cons_append, execAll, hi]
      exact hstop.trans h
    | refused r => simp [execAll, hi] at h

/-- A part of a step is the rows `is`, and none of them ends the step early; it goes on to a state in `P`, or stops. -/
structure Ctl.RunsRows (c : Ctl) (is : List Instr) (s : State) (P : State → Prop) : Prop where
  outcome : c.outcome = execAll is s
  goes : c.Goes P

theorem Ctl.RunsRows.bind {c : Ctl} {f : State → Ctl} {is js : List Instr} {s : State} {P Q : State → Prop}
    (h : c.RunsRows is s P) (hf : ∀ t, P t → (f t).RunsRows js t Q) : (c.bind f).RunsRows (is ++ js) s Q where
  outcome := by
    obtain ⟨hout, hgoes⟩ := h
    cases c with
    | go t => rw [execAll_append_of_next hout.symm]; exact (hf t hgoes).outcome
    | ended t => exact hgoes.elim
    | stop r => exact (execAll_append_of_fault hout.symm).symm
  goes := h.goes.bind fun t ht => (hf t ht).goes

/-- A service that the status selects is its row. -/
theorem Ctl.RunsRows.runIf {b : Bool} {f : State → Ctl} {i : Instr} {s : State} {P : State → Prop}
    (hs : b = false → P s) (hf : b = true → (f s).outcome = exec i s ∧ (f s).Goes P) :
    (runIf b f s).RunsRows (if b then [i] else []) s P := by
  cases b with
  | false => exact ⟨rfl, hs rfl⟩
  | true => exact ⟨(hf rfl).1.trans (execAll_singleton i s).symm, (hf rfl).2⟩

theorem Ctl.RunsRows.forEps {f : Ep → State → Ctl} {rows : Ep → List Instr}
    (hf : ∀ e s, (f e s).RunsRows (rows e) s fun _ => True) (es : List Ep) (s : State) :
    (forEps es f s).RunsRows (es.flatMap rows) s fun _ => True := by
  induction es generalizing s with
  | nil => exact ⟨rfl, trivial⟩
  | cons e es ih => exact (hf e s).bind fun t _ => ih t

/-! ## The endpoint services are their rows (42_bus_event_handler R110, R111) -/

theorem inTxfeEvent_goes (e : Ep) (s : State) : (inTxfeEvent e s).Goes fun _ => True := by
  obtain h | h | ⟨n, q, -, -, h⟩ | h := inTxfeEvent_cases e s <;> rw [h] <;> trivial

theorem inXfrcEvent_iepm (e k : Ep) (s : State) : (inXfrcEvent e s).core.iepm.get k = s.core.iepm.get k := by
  rw [show _ = s.core from (inXfrcEvent_grows e s).only .core (by decide)]

theorem inEndpoint_runsRows (e : Ep) (s : State) :
    (inEndpoint e s).RunsRows [.iepXfrc e, .iepTxfe e] s fun _ => True := by
  rw [inEndpoint_eq_rows]
  constructor
  · rw [execAll_cons (exec_iepXfrc e s), execAll_singleton, exec_iepTxfe]
    congr 2
    split
    · exact (inXfrcEvent_iepm e e s).symm
    · rfl
  · exact .runIf (fun _ => trivial) fun _ => inTxfeEvent_goes e _

/-- The loop body of the OutEndpoint service (42_bus_event_handler R111). -/
def outBody (e : Ep) (s : State) : Ctl := .go (if outPending s e then outEvent e false false s else s)

theorem outEvent_not_stup (e : Ep) (s : State) : outStupFlag (outEvent e false false s) e = false := by
  have hbank : ((outEvent e false false s).oep.get e).stup = false :=
    congrArg OutBank.stup (s.oep.get_set_self e _)
  rw [outStupFlag, hbank, Bool.false_and]

/-- Each of an endpoint's two rows clears both bits, so only one of them does anything. -/
theorem outBody_runsRows (e : Ep) (s : State) : (outBody e s).RunsRows [.oepXfrc e, .oepStup e] s fun _ => True := by
  refine ⟨?_, trivial⟩
  rw [execAll_cons (exec_oepXfrc e s), execAll_singleton, exec_oepStup]
  have hp : outPending s e = (s.core.oepm.get e && outXfrcFlag s e || s.core.oepm.get e && outStupFlag s e) :=
    Bool.and_or_distrib_left _ _ _
  by_cases hx : (s.core.oepm.get e && outXfrcFlag s e) = true
  · rw [if_pos hx, outEvent_not_stup, Bool.and_false, outBody, hp, hx, Bool.true_or]
    rfl
  · rw [if_neg hx, outBody, hp, Bool.eq_false_iff.2 hx, Bool.false_or]
    rfl

/-- An OUT bank has the events that it had when the status was sampled, or none. -/
def OutBank.Settled (old b : OutBank) : Prop := b = old ∨ (b.xfrc = false ∧ b.stup = false)

theorem outEndpoint_of_settled {old : OutBank} {e : Ep} {s : State} (h : old.Settled (s.oep.get e)) :
    outEndpoint old e s = outBody e s := by
  obtain rfl | ⟨hx, hs⟩ := h
  · exact outEndpoint_self e s
  · simp [outEndpoint, outBody, outPendingSince, outPending, outXfrcFlag, outStupFlag, hx, hs]

theorem outBody_other {e k : Ep} {s t : State} (h : outBody e s = .go t) (hk : k ≠ e) : t.oep.get k = s.oep.get k := by
  cases h
  split
  · exact s.oep.get_set_of_ne e k _ hk
  · rfl

/-- Where no event was raised since the status was sampled, the loop of an iteration is the loop of R111. -/
theorem forEps_outEndpoint_of_settled {old : PerEp OutBank} {es : List Ep} (hn : es.Nodup) {s : State}
    (h : ∀ e ∈ es, (old.get e).Settled (s.oep.get e)) :
    forEps es (fun e => outEndpoint (old.get e) e) s = forEps es outBody s := by
  induction es generalizing s with
  | nil => rfl
  | cons a es ih =>
    obtain ⟨ha, hn⟩ := List.nodup_cons.1 hn
    obtain ⟨u, hu⟩ : ∃ u, outBody a s = .go u := ⟨_, rfl⟩
    rw [forEps_cons, forEps_cons, outEndpoint_of_settled (h a (by simp)), hu, Ctl.bind_go, Ctl.bind_go]
    refine ih hn fun e he => ?_
    rw [outBody_other hu fun hea => ha (hea ▸ he)]
    exact h e (List.mem_cons_of_mem a he)

theorem outService_of_settled {old : PerEp OutBank} {s : State} (h : ∀ e, (old.get e).Settled (s.oep.get e)) :
    outService old s = forEps allEps outBody s :=
  forEps_outEndpoint_of_settled (by decide) fun e _ => h e

/-- The row SVC_OEPINT is the loop of R111. -/
theorem exec_svcOepint_eq (s : State) : exec .svcOepint s = (forEps allEps outBody s).outcome := by
  rw [exec_svcOepint, outService_of_settled fun e => .inl rfl]

/-! ## The iteration as its services (42_bus_event_handler R103) -/

/-- No service is selected where nothing is sampled. -/
theorem dispatch_eq_services (s : State) : dispatch s = services (masked s) s := by
  unfold dispatch
  split
  · next h => simp [h, services]
  · rfl

theorem masked_afterTurn (s : State) : masked (afterTurn s) = masked s := by
  rw [afterTurn_eq]
  rfl

theorem step_of_dispatch {s : State} (hm : (nextTurn s).move = .dispatch) (hi : s.inited = true) :
    step s = (services (masked s) (afterTurn s)).outcome := by
  have hinit : (afterTurn s).inited = s.inited := afterTurn_only s .inited (by decide)
  simp only [step, runMove, hm, dispatchTurn, hinit, hi, if_true, dispatch_eq_services, masked_afterTurn]

theorem step_of_dispatch_before_init {s : State} (hm : (nextTurn s).move = .dispatch) (hi : s.inited = false) :
    step s = .next (afterTurn s) := by
  have hinit : (afterTurn s).inited = s.inited := afterTurn_only s .inited (by decide)
  simp [step, runMove, hm, dispatchTurn, hinit, hi]

/-! ## The services of an iteration on whole entries -/

theorem inService_goes (s : State) :
    (inService s).Goes fun t => Grows [.iep, .txq, .din, .core] s t ∧ KeepsBanks s t := by
  have hgoes : (inService s).Goes fun _ => True :=
    .forEps (P := fun _ => True) (fun e u _ => (inEndpoint_runsRows e u).goes) allEps trivial
  refine Ctl.Within.goes (Ctl.Within.forEps (fun e u hu => ?_) allEps ⟨.refl _ s, .refl s⟩) hgoes
  refine ((inEndpoint_grows_in e u).and (inEndpoint_keepsBanks e u)).mono fun t ht => ?_
  exact ⟨(hu.1.trans ht.1).mono (by decide), hu.2.trans ht.2⟩

theorem outService_goes (old : PerEp OutBank) (s : State) :
    (outService old s).Goes fun t => Grows [.oep, .dout] s t := by
  have hgrows : (outService old s).Within fun t => Grows [.oep, .dout] s t := by
    refine Ctl.Within.forEps (fun e u hu => ?_) allEps (.refl _ s)
    unfold outEndpoint outEvent
    split
    · exact ((hu.trans (setOep_grows e _ u)).trans (setDout_grows e _ _)).mono (by decide)
    · exact hu
  obtain ⟨t, ht, -⟩ := outService_effect old s
  rw [ht] at hgrows ⊢
  exact hgrows

/-! ## Notifications (42_bus_event_handler R106, R112) -/

/-- An iteration emits one Reset where USBRST was sampled, then one IsoIncomplete where either isochronous flag was. -/
theorem services_events {w : Word} {s : State} (hf : Framed s.rxq) : (services w s).Goes fun t =>
    t.events = s.events ++ (if w.getLsbD usbrstBit = true then [.reset] else []) ++
      (if w.getLsbD iisoixfrBit = true ∨ w.getLsbD ipxfrBit = true then [.isoIncomplete] else []) := by
  set es := s.events ++ (if w.getLsbD usbrstBit = true then [BusEvent.reset] else []) with hes
  unfold services
  refine Ctl.Goes.bind (P := fun u => Framed u.rxq ∧ u.events = es) ?reset fun u hu => ?_
  case reset =>
    refine .runIf (fun h => ⟨hf, by simp [hes, h]⟩) fun h => ⟨.nil, ?_⟩
    simp [hes, h, busReset]
  refine Ctl.Goes.bind (P := fun u => Framed u.rxq ∧ u.events = es) (.runIf (fun _ => hu) fun _ => hu) fun u hu => ?_
  refine Ctl.Goes.bind (P := fun u => u.events = es) ?rx fun u hu => ?_
  case rx =>
    refine .runIf (fun _ => hu.2) fun _ => (receiveService_framed hu.1).mono fun t ht => ?_
    exact (show t.events = u.events from ht.2.2 .events (by decide)).trans hu.2
  refine Ctl.Goes.bind (P := fun u => u.events = es) ?inn fun u hu => ?_
  case inn =>
    refine .runIf (fun _ => hu) fun _ => (inService_goes u).mono fun t ht => ?_
    exact (show t.events = u.events from ht.1.only .events (by decide)).trans hu
  refine Ctl.Goes.bind (P := fun u => u.events = es) ?out fun u hu => ?_
  case out =>
    refine .runIf (fun _ => hu) fun _ => (outService_goes _ u).mono fun t ht => ?_
    exact (show t.events = u.events from ht.only .events (by decide)).trans hu
  refine Ctl.Goes.bind (P := fun u => u.events = es ++
    (if w.getLsbD iisoixfrBit = true ∨ w.getLsbD ipxfrBit = true then [.isoIncomplete] else [])) ?iso fun u hu => ?_
  case iso =>
    refine .runIf (fun h => ?_) fun h => ?_
    · rw [if_neg (by simpa using h), List.append_nil, hu]
    · rw [Bool.or_eq_true] at h
      rw [if_pos h]
      exact congrArg (· ++ [BusEvent.isoIncomplete]) hu
  exact .runIf (fun _ => hu) fun _ => hu

/-- Settles O32: a row alone clears its own flag; an iteration emits in the Reset service and in the one service of both
isochronous flags. -/
theorem isoIncompleteOnce : Obligations.IsoIncompleteOnce := by
  unfold Obligations.IsoIncompleteOnce
  refine ⟨fun s => ⟨⟨isoIncomplete true false s, rfl, ?_, rfl, (isoIncomplete_grows _ _ s).only⟩,
    isoIncomplete false true s, rfl, ?_, rfl, (isoIncomplete_grows _ _ s).only⟩, fun s t hm hi hf h => ?_⟩
  · simp [isoIncomplete, State.emit]
  · simp [isoIncomplete, State.emit]
  · rw [step_of_dispatch hm hi] at h
    have hrxq : (afterTurn s).rxq = s.rxq := afterTurn_only s .rxq (by decide)
    have hevents : (afterTurn s).events = s.events := afterTurn_only s .events (by decide)
    rw [← hevents]
    exact (services_events (hrxq ▸ hf)).outcome h

/-! ## What the receive service leaves of the OUT endpoints (42_bus_event_handler R108, R109) -/

/-- The head of a receive FIFO is a status word of this kind for endpoint e. -/
def headIs (q : List Word) (kind : BitVec 4) (e : Ep) : Bool :=
  q.head?.any fun w => decide (rxPktsts w = kind ∧ (rxEpnum w).toNat = e.val)

theorem headIs_iff (q : List Word) (kind : BitVec 4) (e : Ep) : headIs q kind e = true ↔
    ∃ w rest, q = w :: rest ∧ rxPktsts w = kind ∧ (rxEpnum w).toNat = e.val := by
  cases q with
  | nil => simp [headIs]
  | cons w rest => simp [headIs]

/-- The bank of OUT endpoint e after the head of the receive FIFO is popped (42_bus_event_handler R109). -/
def OutBank.popped (q : List Word) (e : Ep) (b : OutBank) : OutBank :=
  { b with xfrc := b.xfrc || headIs q kindOutXferDone e, stup := b.stup || headIs q kindSetupDone e }

theorem OutBank.popped_of_not_head {q : List Word} {e : Ep} (b : OutBank) (hx : headIs q kindOutXferDone e = false)
    (hs : headIs q kindSetupDone e = false) : b.popped q e = b := by
  simp [OutBank.popped, hx, hs]

theorem OutBank.popped_nil (e : Ep) (b : OutBank) : b.popped [] e = b := b.popped_of_not_head rfl rfl

/-- Only the two kinds of R109 write an OUT bank, and only that of the endpoint that the word names. -/
theorem receiveService_oep (s : State) :
    (receiveService s).Within fun t => ∀ e, t.oep.get e = (s.oep.get e).popped s.rxq e := by
  unfold receiveService
  split
  · next hq => exact fun e => by rw [hq, OutBank.popped_nil]
  next w q hq =>
  have hdump : ∀ {u} n, (∀ e, u.oep.get e = (s.oep.get e).popped (w :: q) e) →
      (dumpPacket n u).Within fun t => ∀ e, t.oep.get e = (s.oep.get e).popped (w :: q) e := fun {u} n hu =>
    (dumpPacket_grows n u).mono fun t ht e => by rw [show t.oep = u.oep from ht.only .oep (by decide), hu]
  rw [hq]
  unfold receiveEntry receiveXferDone receiveSetupDone receiveOther
  split
  · next hk =>
    refine (receiveData_grows _ _ _).mono fun t ht e => ?_
    rw [show t.oep = s.oep from ht.only .oep (by decide), OutBank.popped_of_not_head]
    · obtain hk | hk := hk <;> simp [headIs, hk, kindOutData, kindSetupData, kindOutXferDone]
    · obtain hk | hk := hk <;> simp [headIs, hk, kindOutData, kindSetupData, kindSetupDone]
  split
  · next hk =>
    refine hdump _ fun e => ?_
    rw [popXferDone_oep]
    by_cases he : (rxEpnum w).toNat = e.val <;>
      simp [OutBank.popped, headIs, hk, he, kindOutXferDone, kindSetupDone]
  split
  · next hk =>
    refine hdump _ fun e => ?_
    rw [popSetupDone_oep]
    by_cases he : (rxEpnum w).toNat = e.val <;>
      simp [OutBank.popped, headIs, hk, he, kindOutXferDone, kindSetupDone]
  · next hx hs => exact hdump _ fun e => by simp [OutBank.popped, headIs, hx, hs]

/-- The receive service leaves a descriptor as it is, or moves the offset of an Armed one. -/
def Descriptor.Advances (d d' : Descriptor) : Prop := d' = d ∨ (d.status = .armed ∧ d' = { d with off := d'.off })

theorem Descriptor.Advances.status {d d' : Descriptor} (h : d.Advances d') : d'.status = d.status := by
  obtain rfl | ⟨-, h⟩ := h
  · rfl
  · rw [h]

theorem Descriptor.Advances.of_not_armed {d d' : Descriptor} (h : d.Advances d') (hd : d.status ≠ .armed) : d' = d :=
  h.resolve_right fun ha => hd ha.1

theorem receiveData_advances (epnum : BitVec 4) (bcnt : BitVec 11) (s : State) :
    (receiveData epnum bcnt s).Within fun t => ∀ e, (s.dout.get e).Advances (t.dout.get e) := by
  have hdump : ∀ {u} n, (∀ e, (s.dout.get e).Advances (u.dout.get e)) →
      (dumpPacket n u).Within fun t => ∀ e, (s.dout.get e).Advances (t.dout.get e) := fun {u} n hu =>
    (dumpPacket_grows n u).mono fun t ht e => by rw [show t.dout = u.dout from ht.only .dout (by decide)]; exact hu e
  unfold receiveData keepData
  split
  · exact hdump _ fun e => .inl rfl
  next k _ =>
  split
  · exact hdump _ fun e => .inl rfl
  next n hk =>
  obtain ⟨-, h⟩ | ⟨-, -, h⟩ | ⟨-, -, h⟩ :=
    readPacket_cases ((s.dout.get k).buf.toNat + (s.dout.get k).off.toNat) n s <;> rw [h]
  · trivial
  · refine hdump _ fun e => ?_
    by_cases he : e = k
    · refine .inr ⟨he ▸ (keptBytes_some hk).1, ?_⟩
      simp [advanceDout, he]
    · exact .inl (s.dout.get_set_of_ne k e _ he)
  · exact fun e => .inl rfl

theorem receiveService_advances (s : State) :
    (receiveService s).Within fun t => ∀ e, (s.dout.get e).Advances (t.dout.get e) := by
  unfold receiveService
  split
  · exact fun e => .inl rfl
  next w q _ =>
  have hdump : ∀ {u} n, u.dout = s.dout →
      (dumpPacket n u).Within fun t => ∀ e, (s.dout.get e).Advances (t.dout.get e) := fun {u} n hu =>
    (dumpPacket_grows n u).mono fun t ht e => .inl (by rw [show t.dout = u.dout from ht.only .dout (by decide), hu])
  unfold receiveEntry receiveXferDone receiveSetupDone receiveOther
  split
  · exact receiveData_advances _ _ (s.setRxq q)
  split
  · exact hdump _ ((popXferDone_grows _ (s.setRxq q)).only .dout (by decide))
  split
  · exact hdump _ ((popSetupDone_grows _ (s.setRxq q)).only .dout (by decide))
  · exact hdump _ rfl

/-! ## What an iteration leaves of the OUT endpoints (42_bus_event_handler R109, R111, 60_exceptions R157) -/

/-- The words that an iteration with the sampled status `w` may pop. -/
def popQueue (w : Word) (s : State) : List Word := if w.getLsbD rxflvlBit then s.rxq else []

theorem headIs_popQueue_iff (s : State) (kind : BitVec 4) (e : Ep) :
    headIs (popQueue (masked s) s) kind e = true ↔ Pops s kind e := by
  rw [headIs_iff, Pops, popQueue]
  cases (masked s).getLsbD rxflvlBit <;> simp

/-- What the services before OutEndpoint leave of the OUT endpoints, where no reset was sampled. -/
structure AfterRx (w : Word) (s u : State) : Prop where
  oepm : u.core.oepm = s.core.oepm
  modes : u.core.modes = s.core.modes
  oep : ∀ e, u.oep.get e = (s.oep.get e).popped (popQueue w s) e
  dout : ∀ e, (s.dout.get e).Advances (u.dout.get e)

/-- OUT endpoint e is flagged in the sample, and OEPINT was sampled. -/
def outServiced (w : Word) (s : State) (e : Ep) : Bool := w.getLsbD oepintBit && outPending s e

/-- What an iteration leaves of OUT endpoint e: its events and its pop, and a completion of just what was sampled. -/
def OutOutcome (w : Word) (s t : State) (e : Ep) : Prop :=
  let b := s.oep.get e
  let p := b.popped (popQueue w s) e
  ∃ d, (s.dout.get e).Advances d ∧
    (outServiced w s e = false → t.dout.get e = d ∧ t.oep.get e = p) ∧
    (outServiced w s e = true → t.dout.get e = d.completed ∧
      t.oep.get e = { p with xfrc := p.xfrc && !b.xfrc, stup := p.stup && !b.stup })

theorem OutOutcome.of_grows {w : Word} {s t u : State} {e : Ep} {ps : List Part} (h : OutOutcome w s t e)
    (hu : Grows ps t u) (hps : ∀ p ∈ [Part.oep, .dout], p ∉ ps) : OutOutcome w s u e := by
  have hoep : u.oep = t.oep := hu.only .oep (hps .oep (by decide))
  have hdout : u.dout = t.dout := hu.only .dout (hps .dout (by decide))
  unfold OutOutcome
  rwa [hoep, hdout]

/-- An event that a pop raised does not count: it is flagged since the sample, not in it. -/
theorem AfterRx.outPendingSince_eq {w : Word} {s u : State} (h : AfterRx w s u) (e : Ep) :
    outPendingSince (s.oep.get e) u e = outPending s e := by
  have hmodes := h.modes
  simp only [CoreRegs.modes, Prod.mk.injEq] at hmodes
  obtain ⟨-, -, -, -, hxfrcm, hstupm⟩ := hmodes
  simp only [outPendingSince, outPending, outXfrcFlag, outStupFlag, h.oepm, h.oep, hxfrcm, hstupm, OutBank.popped]
  cases (s.oep.get e).xfrc <;> cases (s.oep.get e).stup <;> simp

theorem AfterRx.outService {w : Word} {s u : State} (h : AfterRx w s u) (hw : w.getLsbD oepintBit = true) :
    (outService s.oep u).Goes fun t => ∀ e, OutOutcome w s t e := by
  obtain ⟨t, ht, -, hat⟩ := outService_effect s.oep u
  rw [ht]
  intro e
  obtain ⟨hnot, hdue⟩ := hat e
  rw [h.outPendingSince_eq, h.oep] at hnot hdue
  have hserviced : outServiced w s e = outPending s e := by rw [outServiced, hw, Bool.true_and]
  refine ⟨u.dout.get e, h.dout e, fun hp => ?_, fun hp => ?_⟩
  · exact (hnot (hserviced ▸ hp)).symm
  · exact (hdue (hserviced ▸ hp)).symm

theorem AfterRx.notServiced {w : Word} {s u : State} (h : AfterRx w s u) (hw : w.getLsbD oepintBit = false) (e : Ep) :
    OutOutcome w s u e := by
  have hserviced : outServiced w s e = false := by rw [outServiced, hw, Bool.false_and]
  exact ⟨u.dout.get e, h.dout e, fun _ => ⟨rfl, h.oep e⟩, fun hp => by simp [hserviced] at hp⟩

theorem AfterRx.of_keeps {w : Word} {s u t : State} {ps : List Part} (h : AfterRx w s u) (ht : Grows ps u t)
    (hps : ∀ p ∈ [Part.oep, .dout], p ∉ ps) (hregs : KeepsBanks u t) : AfterRx w s t := by
  have hoep : t.oep = u.oep := ht.only .oep (hps .oep (by decide))
  have hdout : t.dout = u.dout := ht.only .dout (hps .dout (by decide))
  exact ⟨hregs.oepm.trans h.oepm, hregs.modes.trans h.modes, hoep ▸ h.oep, hdout ▸ h.dout⟩

/-- The receive service, where it is selected, after a service that leaves the OUT endpoints and the FIFO alone. -/
theorem receiveService_afterRx {w : Word} {s u : State} (hf : Framed s.rxq) (hu : Grows [.core, .busActive] s u)
    (hregs : KeepsBanks s u) : (runIf (w.getLsbD rxflvlBit) receiveService u).Goes (AfterRx w s) := by
  have hrxq : u.rxq = s.rxq := hu.only .rxq (by decide)
  have hoep : u.oep = s.oep := hu.only .oep (by decide)
  have hdout : u.dout = s.dout := hu.only .dout (by decide)
  refine .runIf (fun hw => ?_) fun hw => ?_
  · refine ⟨hregs.oepm, hregs.modes, fun e => ?_, fun e => .inl (by rw [hdout])⟩
    rw [popQueue, hw, hoep]
    exact (OutBank.popped_nil e _).symm
  · have hrun := ((receiveService_oep u).and (receiveService_advances u)).and (receiveService_keepsBanks u)
    refine (hrun.goes (receiveService_goes (hrxq ▸ hf))).mono fun t ⟨⟨ht, hd⟩, hk⟩ => ?_
    refine ⟨hk.oepm.trans hregs.oepm, hk.modes.trans hregs.modes, fun e => ?_, fun e => hdout ▸ hd e⟩
    rw [ht, popQueue, hw, hoep, hrxq]
    rfl

theorem services_outOutcome {w : Word} {s : State} (hf : Framed s.rxq) (hr : w.getLsbD usbrstBit = false) :
    (services w s).Goes fun t => ∀ e, OutOutcome w s t e := by
  unfold services
  rw [hr, runIf_false, Ctl.bind_go]
  refine Ctl.Goes.bind (P := fun u => Grows [.core, .busActive] s u ∧ KeepsBanks s u) ?enum fun u hu => ?_
  case enum => exact .runIf (fun _ => ⟨.refl _ s, .refl s⟩) fun _ => ⟨enumDone_grows s, enumDone_keepsBanks s⟩
  refine (receiveService_afterRx hf hu.1 hu.2).bind fun u hu => ?_
  refine Ctl.Goes.bind (P := AfterRx w s) ?inn fun u hu => ?_
  case inn =>
    exact .runIf (fun _ => hu) fun _ => (inService_goes u).mono fun t ht => hu.of_keeps ht.1 (by decide) ht.2
  refine Ctl.Goes.bind (P := fun t => ∀ e, OutOutcome w s t e) (.runIf hu.notServiced hu.outService) fun u hu => ?_
  refine Ctl.Goes.bind (P := fun t => ∀ e, OutOutcome w s t e) ?iso fun u hu => ?_
  case iso => exact .runIf (fun _ => hu) fun _ e => (hu e).of_grows (isoIncomplete_grows _ _ u) (by decide)
  exact .runIf (fun _ => hu) fun _ e => (hu e).of_grows (wake_grows u) (by decide)

/-! ## An iteration is the selected rows (42_bus_event_handler R103, R104) -/

/-- Nothing that the OutEndpoint service would have to leave for a later iteration: no event raised since the sample, and
none that the receive service is about to raise. -/
structure NothingWaits (w : Word) (old : PerEp OutBank) (u : State) : Prop where
  framed : Framed u.rxq
  settled : w.getLsbD oepintBit = true → ∀ e, (old.get e).Settled (u.oep.get e)
  quiet : w.getLsbD oepintBit = true → ∀ e, headIs (popQueue w u) kindOutXferDone e = false ∧
    headIs (popQueue w u) kindSetupDone e = false

/-- A reset clears every latched bit and the receive FIFO. -/
theorem NothingWaits.busReset (w : Word) (old : PerEp OutBank) (s : State) : NothingWaits w old (busReset s) := by
  have hpop : popQueue w (Machine.busReset s) = [] := by
    unfold popQueue
    split
    · rfl
    · rfl
  refine ⟨.nil, fun _ e => .inr ?_, fun _ e => by rw [hpop]; exact ⟨rfl, rfl⟩⟩
  rw [show (Machine.busReset s).oep.get e = _ from PerEp.get_map _ s.oep e]
  exact ⟨rfl, rfl⟩

theorem NothingWaits.receiveService {w : Word} {old : PerEp OutBank} {u : State} (h : NothingWaits w old u)
    (hw : w.getLsbD rxflvlBit = true) : (receiveService u).Goes fun t =>
      w.getLsbD oepintBit = true → ∀ e, (old.get e).Settled (t.oep.get e) := by
  refine ((receiveService_oep u).goes (receiveService_goes h.framed)).mono fun t ht ho e => ?_
  have hquiet := h.quiet ho e
  rw [popQueue, hw, if_pos rfl] at hquiet
  rw [ht e, OutBank.popped_of_not_head _ hquiet.1 hquiet.2]
  exact h.settled ho e

/-- With one of the two isochronous flags at most, their one service is the row of the flag that is set. -/
theorem isoIncomplete_runsRows {a b : Bool} (h : ¬ (a = true ∧ b = true)) (s : State) :
    (runIf (a || b) (fun s => .go (isoIncomplete a b s)) s).RunsRows
      ((if a then [.svcIisoixfr] else []) ++ (if b then [.svcIpxfr] else [])) s fun _ => True := by
  cases a with
  | false =>
    cases b with
    | false => exact ⟨rfl, trivial⟩
    | true => exact ⟨rfl, trivial⟩
  | true =>
    cases b with
    | false => exact ⟨rfl, trivial⟩
    | true => exact absurd ⟨rfl, rfl⟩ h

/-- Where nothing has to wait, the services of an iteration are the selected rows one after another. -/
theorem services_runsRows {w : Word} {s : State} (hquiet : w.getLsbD usbrstBit = false → NothingWaits w s.oep s)
    (hiso : ¬ (w.getLsbD iisoixfrBit = true ∧ w.getLsbD ipxfrBit = true)) :
    (services w s).RunsRows (selected w) s fun _ => True := by
  unfold services
  simp only [selected, List.append_assoc]
  refine .bind (P := NothingWaits w s.oep) (.runIf hquiet fun _ => ⟨rfl, .busReset w _ s⟩) fun u hu => ?_
  refine .bind (P := NothingWaits w s.oep) (.runIf (fun _ => hu) fun _ => ⟨rfl, ?enum⟩) fun u hu => ?_
  case enum => exact ⟨hu.framed, hu.settled, hu.quiet⟩
  refine .bind (P := fun u => w.getLsbD oepintBit = true → ∀ e, (s.oep.get e).Settled (u.oep.get e))
    (.runIf (fun _ => hu.settled) fun hw => ⟨rfl, hu.receiveService hw⟩) fun u hu => ?_
  refine .bind (P := fun u => w.getLsbD oepintBit = true → ∀ e, (s.oep.get e).Settled (u.oep.get e))
    (.runIf (fun _ => hu) fun _ => ⟨rfl, (inService_goes u).mono fun t ht => ?inn⟩) fun u hu => ?_
  case inn =>
    rw [show t.oep = u.oep from ht.1.only .oep (by decide)]
    exact hu
  refine .bind (P := fun _ => True)
    (.runIf (fun _ => trivial) fun ho => ⟨?out, (outService_goes _ u).mono fun _ _ => trivial⟩) fun u _ => ?_
  case out => rw [outService_of_settled (hu ho), exec_svcOepint_eq]
  rw [← List.append_assoc]
  exact .bind (isoIncomplete_runsRows hiso u) fun u _ => .runIf (fun _ => trivial) fun _ => ⟨rfl, trivial⟩

/-- A bit that its own event may have raised since the sample, and that was not in it. -/
theorem raisedSince_iff (old raised : Bool) : ((old || raised) && !old) = true ↔ old = false ∧ raised = true := by
  revert old raised
  decide

/-- Settles O39: the services are the selected rows; what the receive service raises is not in the sample, so it waits; and
each endpoint service is a loop of its endpoints' rows. -/
theorem dispatcherRunsSelectedRows : Obligations.DispatcherRunsSelectedRows := by
  unfold Obligations.DispatcherRunsSelectedRows
  refine ⟨fun s hm => ⟨step_of_dispatch_before_init hm, fun hi hf hiso hpops => ?rows⟩, ?events, fun s => ⟨?inn, ?out⟩⟩
  case rows =>
    have hafter := afterTurn_only s
    have hrxq : (afterTurn s).rxq = s.rxq := hafter .rxq (by decide)
    rw [step_of_dispatch hm hi]
    refine (services_runsRows (fun hr => ⟨hrxq ▸ hf, fun _ e => .inl rfl, fun ho e => ?_⟩) hiso).outcome
    obtain ⟨hx, hs⟩ := hpops hr ho e
    rw [popQueue, hrxq]
    exact ⟨Bool.eq_false_iff.2 (mt (headIs_popQueue_iff s _ e).1 hx),
      Bool.eq_false_iff.2 (mt (headIs_popQueue_iff s _ e).1 hs)⟩
  case events =>
    intro s t hm hi hf hr h e b flag
    have hrxq : (afterTurn s).rxq = s.rxq := afterTurn_only s .rxq (by decide)
    rw [step_of_dispatch hm hi] at h
    have hout := (services_outOutcome (hrxq ▸ hf) hr).outcome h e
    rw [afterTurn_eq] at hout
    obtain ⟨d, hadv, hnot, hdue⟩ : OutOutcome (masked s) s t e := hout
    have hflag : flag ↔ outServiced (masked s) s e = true := by rw [outServiced, Bool.and_eq_true, outPending_iff]
    rw [hflag, Bool.not_eq_true]
    simp only [← headIs_popQueue_iff]
    refine ⟨fun hf => ?_, fun hf => ?_⟩
    · obtain ⟨hd, hb⟩ := hnot hf
      rw [hd, hb]
      exact ⟨hadv.status, Bool.or_eq_true_iff, Bool.or_eq_true_iff⟩
    · obtain ⟨hd, hb⟩ := hdue hf
      rw [hd, hb]
      have hcomp := d.completed_eq
      refine ⟨fun ha => ?_, fun ha => ?_, raisedSince_iff _ _, raisedSince_iff _ _⟩
      · rw [hcomp.1 (hadv.status.trans ha)]
      · rw [hcomp.2 (hadv.status ▸ ha), hadv.of_not_armed ha]
  case inn => rw [exec_svcIepint]; exact (Ctl.RunsRows.forEps inEndpoint_runsRows allEps s).outcome
  case out => rw [exec_svcOepint_eq]; exact (Ctl.RunsRows.forEps outBody_runsRows allEps s).outcome

end Sys2Proof.Machine

/-! SUPPORT. Proof of the statement about terminal statuses (42_bus_event_handler R105, R114, 10_state R41, 60_exceptions
R158): the dispatcher ends Armed descriptors alone, and every other agent arms a descriptor, returns it to Idle or leaves
it. -/

namespace Sys2Proof.Machine

/-! ## Descriptors of a state -/

theorem descriptor_setDescriptor (s : State) (dir dir' : Dir) (e e' : Ep) (d : Descriptor) :
    descriptor (setDescriptor s dir e d) dir' e' = if dir' = dir ∧ e' = e then d else descriptor s dir' e' := by
  cases dir <;> cases dir' <;> simp [descriptor, setDescriptor, PerEp.get_set]

theorem descriptor_of_grows {ps : List Part} {s t : State} (h : Grows ps s t) (hps : ∀ p ∈ [Part.din, .dout], p ∉ ps)
    (dir : Dir) (e : Ep) : descriptor t dir e = descriptor s dir e := by
  have hdin : t.din = s.din := h.only .din (hps .din (by decide))
  have hdout : t.dout = s.dout := h.only .dout (hps .dout (by decide))
  cases dir <;> simp only [descriptor, hdin, hdout]

theorem descriptor_busReset (s : State) (dir : Dir) (e : Ep) :
    descriptor (busReset s) dir e = (descriptor s dir e).afterReset := by
  cases dir with
  | inn => exact PerEp.get_map _ s.din e
  | out => exact PerEp.get_map _ s.dout e

/-! ## The services other than Reset (42_bus_event_handler R105, R114) -/

/-- What the services other than Reset do to a descriptor: one that is not Armed is left, and an Armed one keeps its buffer
and its request and stays Armed or completes with its offset. -/
def Descriptor.Served (d d' : Descriptor) : Prop :=
  d' = d ∨ (d.status = .armed ∧ d'.buf = d.buf ∧ d'.req = d.req ∧ (d'.status = .armed ∨ d'.status = .complete d'.off))

theorem Descriptor.Served.trans {d d' d'' : Descriptor} (h : d.Served d') (k : d'.Served d'') : d.Served d'' := by
  obtain rfl | ⟨ha, hbuf, hreq, hs⟩ := h
  · exact k
  obtain rfl | ⟨-, hbuf', hreq', hs'⟩ := k
  · exact .inr ⟨ha, hbuf, hreq, hs⟩
  · exact .inr ⟨ha, hbuf'.trans hbuf, hreq'.trans hreq, hs'⟩

theorem Descriptor.served_completed (d : Descriptor) : d.Served d.completed := by
  by_cases hd : d.status = .armed
  · rw [d.completed_eq.1 hd]
    exact .inr ⟨hd, rfl, rfl, .inr rfl⟩
  · rw [d.completed_eq.2 hd]
    exact .inl rfl

theorem Descriptor.served_moved {d : Descriptor} (hd : d.status = .armed) (off : Word) : d.Served { d with off := off } :=
  .inr ⟨hd, rfl, rfl, .inl hd⟩

theorem Descriptor.Advances.served {d d' : Descriptor} (h : d.Advances d') : d.Served d' := by
  obtain rfl | ⟨hd, h⟩ := h
  · exact .inl rfl
  · rw [h]
    exact Descriptor.served_moved hd _

/-- Every descriptor of `s` was served. -/
def Serves (s t : State) : Prop := ∀ dir e, (descriptor s dir e).Served (descriptor t dir e)

theorem Serves.trans {s t u : State} (h : Serves s t) (k : Serves t u) : Serves s u :=
  fun dir e => (h dir e).trans (k dir e)

theorem Serves.of_grows {ps : List Part} {s t : State} (h : Grows ps s t) (hps : ∀ p ∈ [Part.din, .dout], p ∉ ps) :
    Serves s t := fun dir e => .inl (descriptor_of_grows h hps dir e)

/-- One descriptor served, and the others left. -/
theorem Serves.setDescriptor {s : State} {dir : Dir} {e : Ep} {d : Descriptor} (h : (descriptor s dir e).Served d) :
    Serves s (setDescriptor s dir e d) := fun dir' e' => by
  rw [descriptor_setDescriptor]
  split
  · next heq => rw [heq.1, heq.2]; exact h
  · exact .inl rfl

theorem receiveService_serves (s : State) : (receiveService s).Within (Serves s) := by
  have hrun := (receiveService_advances s).and (receiveService_drainsRx s)
  refine hrun.mono fun t ⟨hd, hrx⟩ dir e => ?_
  cases dir with
  | inn => exact .inl (congrArg (PerEp.get · e) (hrx.grows.only .din (by decide)))
  | out => exact (hd e).served

theorem inXfrcEvent_serves (e : Ep) (s : State) : Serves s (inXfrcEvent e s) := by
  unfold inXfrcEvent
  split
  · have hbank : Serves s (s.setIep e { s.iep.get e with xfrc := false }) := .of_grows (setIep_grows e _ s) (by decide)
    exact hbank.trans (.setDescriptor (dir := .inn) (s.din.get e).served_completed)
  · exact fun _ _ => .inl rfl

/-- A move of the offset serves an Armed IN descriptor. -/
theorem advanceDin_serves {e : Ep} {s : State} (n : Nat) (hd : (s.din.get e).status = .armed) :
    Serves s (advanceDin e n s) := by
  rw [advanceDin_eq]
  exact (Serves.setDescriptor (dir := .inn) (Descriptor.served_moved hd _)).trans
    (.of_grows (setCore_grows _ _) (by decide))

theorem inTxfeEvent_serves (e : Ep) (s : State) : (inTxfeEvent e s).Within (Serves s) := by
  unfold inTxfeEvent
  split
  · split
    · next ha =>
      have hd := (s.din.get e).isArmed_iff.1 ha
      obtain ⟨-, h⟩ | ⟨-, h⟩ := writePacket_cases e ((s.din.get e).buf.toNat + (s.din.get e).off.toNat)
        ((s.din.get e).req.toNat - (s.din.get e).off.toNat) s <;> rw [h]
      · have hpush : ∀ q, Serves s (s.setTxq e q) := fun q => .of_grows (setTxq_grows e q s) (by decide)
        exact (hpush _).trans (advanceDin_serves _ hd)
      · trivial
    · exact .of_grows (maskTxfe_grows e s) (by decide)
  · exact fun _ _ => .inl rfl

theorem inEndpoint_serves (e : Ep) (s : State) : (inEndpoint e s).Within (Serves s) := by
  unfold inEndpoint
  split
  · exact (inTxfeEvent_serves e _).mono fun t ht => (inXfrcEvent_serves e s).trans ht
  · exact fun _ _ => .inl rfl

theorem outEndpoint_serves (old : OutBank) (e : Ep) (s : State) : (outEndpoint old e s).Within (Serves s) := by
  unfold outEndpoint outEvent
  split
  · exact (Serves.of_grows (setOep_grows e _ s) (by decide)).trans
      (.setDescriptor (dir := .out) (s.dout.get e).served_completed)
  · exact fun _ _ => .inl rfl

/-! ## An iteration (42_bus_event_handler R104) -/

/-- What an iteration does to a descriptor: a reset comes before every other service, and leaves nothing Armed to them. -/
def Descriptor.Iterated (d d' : Descriptor) : Prop := d.Served d' ∨ d' = d.afterReset

theorem Descriptor.afterReset_not_armed (d : Descriptor) : d.afterReset.status ≠ .armed := by
  by_cases hd : d.status = .armed
  · simp [d.afterReset_eq.1 hd]
  · rwa [d.afterReset_eq.2 hd]

theorem Descriptor.Iterated.served {d d' d'' : Descriptor} (h : d.Iterated d') (k : d'.Served d'') : d.Iterated d'' := by
  obtain h | rfl := h
  · exact .inl (h.trans k)
  · exact .inr (k.resolve_right fun ha => d.afterReset_not_armed ha.1)

/-- Whatever the services after Reset keep, an iteration keeps that has it at its start and after a reset (42 R104). -/
theorem dispatch_within_of_start {P : State → Prop} {s : State} (hs : P s) (hreset : P (busReset s))
    (henum : ∀ s, P s → P (enumDone s)) (hrx : ∀ s, P s → (receiveService s).Within P)
    (hin : ∀ e s, P s → (inEndpoint e s).Within P) (hout : ∀ old e s, P s → (outEndpoint old e s).Within P)
    (hiso : ∀ a b s, P s → P (isoIncomplete a b s)) (hwake : ∀ s, P s → P (wake s)) : (dispatch s).Within P := by
  rw [dispatch_eq_services]
  unfold services
  refine Ctl.Within.bind (Ctl.Within.runIf hs fun _ => hreset) fun s hs => ?_
  refine Ctl.Within.bind (Ctl.Within.runIf hs fun _ => henum _ hs) fun s hs => ?_
  refine Ctl.Within.bind (Ctl.Within.runIf hs fun _ => hrx _ hs) fun s hs => ?_
  refine Ctl.Within.bind (Ctl.Within.runIf hs fun _ => Ctl.Within.forEps hin _ hs) fun s hs => ?_
  refine Ctl.Within.bind (Ctl.Within.runIf hs fun _ => Ctl.Within.forEps (fun e => hout _ e) _ hs) fun s hs => ?_
  refine Ctl.Within.bind (Ctl.Within.runIf hs fun _ => hiso _ _ _ hs) fun s hs => ?_
  exact Ctl.Within.runIf hs fun _ => hwake _ hs

theorem dispatch_iterated (s : State) :
    (dispatch s).Within fun t => ∀ dir e, (descriptor s dir e).Iterated (descriptor t dir e) := by
  have hthen : ∀ {u t : State}, (∀ dir e, (descriptor s dir e).Iterated (descriptor u dir e)) → Serves u t →
      ∀ dir e, (descriptor s dir e).Iterated (descriptor t dir e) := fun hu ht dir e => (hu dir e).served (ht dir e)
  refine dispatch_within_of_start (fun dir e => .inl (.inl rfl)) ?reset ?enum ?rx ?inn ?out ?iso ?wake
  case reset => exact fun dir e => .inr (descriptor_busReset s dir e)
  case enum => exact fun u hu => hthen hu (.of_grows (enumDone_grows u) (by decide))
  case rx => exact fun u hu => (receiveService_serves u).mono fun t ht => hthen hu ht
  case inn => exact fun e u hu => (inEndpoint_serves e u).mono fun t ht => hthen hu ht
  case out => exact fun old e u hu => (outEndpoint_serves old e u).mono fun t ht => hthen hu ht
  case iso => exact fun a b u hu => hthen hu (.of_grows (isoIncomplete_grows a b u) (by decide))
  case wake => exact fun u hu => hthen hu (.of_grows (wake_grows u) (by decide))

/-! ## The other agents -/

/-- A descriptor is left as it is, armed, or returned to Idle: none of the three writes a terminal status. -/
def Descriptor.NotEnded (d d' : Descriptor) : Prop := d' = d ∨ d'.status = .armed ∨ d'.status = .idle

/-- No descriptor of `s` gets a terminal status. -/
def EndsNone (s t : State) : Prop := ∀ dir e, (descriptor s dir e).NotEnded (descriptor t dir e)

theorem EndsNone.trans {s t u : State} (h : EndsNone s t) (k : EndsNone t u) : EndsNone s u := fun dir e => by
  obtain hk | hk := k dir e
  · rw [hk]
    exact h dir e
  · exact .inr hk

theorem EndsNone.of_grows {ps : List Part} {s t : State} (h : Grows ps s t) (hps : ∀ p ∈ [Part.din, .dout], p ∉ ps) :
    EndsNone s t := fun dir e => .inl (descriptor_of_grows h hps dir e)

theorem EndsNone.setDescriptor {s : State} {dir : Dir} {e : Ep} {d : Descriptor}
    (h : d.status = .armed ∨ d.status = .idle) : EndsNone s (setDescriptor s dir e d) := fun dir' e' => by
  rw [descriptor_setDescriptor]
  split
  · exact .inr h
  · exact .inl rfl

/-- INIT empties every descriptor, an arm arms one, and another command leaves them (10_state R41). -/
theorem PortEffect.endsNone {s t : State} (h : PortEffect s t) : EndsNone s t := by
  obtain ⟨-, rfl⟩ | ⟨-, dir, e, buf, size, tmo, n, u, -, -, hu, rfl⟩ | hgrows := h.classes
  · have hup : EndsNone s (bringUp s) := fun dir e =>
      .inr (.inr (by cases dir <;> simp [descriptor, bringUp, Descriptor.empty]))
    exact hup.trans (.of_grows (onCur_grows _ _) (by decide))
  · have harm := EndsNone.setDescriptor (s := s) (dir := dir) (e := e)
      (d := { armedDescriptor buf size with off := BitVec.ofNat 32 n }) (.inl rfl)
    exact (harm.trans (.of_grows (.of_only hu (by decide)) (by decide))).trans (.of_grows (onCur_grows _ u) (by decide))
  · exact .of_grows hgrows (by decide)

/-- A poll returns a descriptor to Idle, or leaves it (43_transfer_api R123). -/
theorem poll_endsNone (dir : Dir) (e : Ep) (t0 : Nat) (tmo : Word) (s : State) : EndsNone s (poll dir e t0 tmo s) := by
  have hend : ∀ v u, EndsNone u (endWait dir e v u) := fun v u =>
    (EndsNone.setDescriptor (.inr rfl)).trans (.of_grows (onCur_grows _ _) (by decide))
  obtain ⟨n, -, h⟩ | ⟨-, h⟩ | ⟨-, -, h⟩ | ⟨-, -, h⟩ := poll_cases dir e t0 tmo s <;> rw [h]
  · exact hend n s
  · exact hend codeReset s
  · exact (EndsNone.of_grows (timeoutRecover_grows dir e s) (by decide)).trans (hend codeTimeout _)
  · exact fun _ _ => .inl rfl

/-- A step of another agent than the dispatcher. -/
theorem step_endsNone {s t : State} (h : step s = .next t) (hm : (nextTurn s).move ≠ .dispatch) : EndsNone s t := by
  have hafter := EndsNone.of_grows (afterTurn_grows s) (by decide)
  have htask : ∀ j, EndsNone s (taskState j s) := fun j => .of_grows (taskState_grows j s) (by decide)
  obtain ⟨j, k, i, -, -, -, hi, he⟩ | ⟨j, k, r, -, -, -, -, rfl⟩ | ⟨j, k, dir, e, t0, tmo, -, -, -, rfl⟩ |
    ⟨j, k, -, -, -, rfl⟩ | ⟨j, -, -, rfl⟩ | ⟨hd, -, -⟩ | ⟨hd, -, -⟩ | ⟨m, -, -, rfl⟩ | ⟨m, -, -, rfl⟩ | ⟨-, rfl⟩ |
    ⟨j, -, rfl⟩ := step_cases h
  · exact (htask j).trans (port_effect (decodeCommand_port hi) he).endsNone
  · exact (htask j).trans (.of_grows (rejectWord_grows r _) (by decide))
  · exact (htask j).trans (poll_endsNone dir e t0 tmo _)
  · exact htask j
  · exact hafter
  · exact absurd hd hm
  · exact absurd hd hm
  · exact hafter.trans (.of_grows (busEffect_grows m _) (by decide))
  · exact hafter
  · exact hafter.trans (.of_grows (tick_grows _) (by decide))
  · exact hafter.trans (.of_grows (observe_grows j _) (by decide))

/-- A step of the dispatcher is an iteration, or nothing before `init`. -/
theorem step_iterated {s t : State} (h : step s = .next t) (hm : (nextTurn s).move = .dispatch) (dir : Dir) (e : Ep) :
    (descriptor s dir e).Iterated (descriptor t dir e) := by
  have hafter := descriptor_of_grows (afterTurn_grows s) (by decide) dir e
  cases hi : s.inited with
  | false =>
    rw [step_of_dispatch_before_init hm hi] at h
    cases h
    exact .inl (.inl hafter)
  | true =>
    rw [step_of_dispatch hm hi, ← masked_afterTurn, ← dispatch_eq_services] at h
    rw [← hafter]
    exact (dispatch_iterated _).outcome h dir e

/-- Settles O40: a service serves Armed descriptors alone, a reset comes first, and no other agent ends a descriptor. -/
theorem terminalStatusOnlyFromArmed : Obligations.TerminalStatusOnlyFromArmed := by
  unfold Obligations.TerminalStatusOnlyFromArmed
  intro s t dir e h d d'
  refine ⟨fun hm hd => ?left, fun hm hd => ?armed, fun hm => ?other⟩
  case left =>
    obtain hserved | hreset := step_iterated h hm dir e
    · exact hserved.resolve_right fun ha => hd ha.1
    · exact hreset.trans (d.afterReset_eq.2 hd)
  case armed =>
    obtain (heq | ⟨-, hbuf, hreq, hs⟩) | hreset := step_iterated h hm dir e
    · have heq : d' = d := heq
      rw [heq]
      exact ⟨rfl, rfl, .inl hd⟩
    · exact ⟨hbuf, hreq, hs.imp_right .inl⟩
    · have hfailed : d' = { d with status := .failed .reset } := hreset.trans (d.afterReset_eq.1 hd)
      rw [hfailed]
      exact ⟨rfl, rfl, .inr (.inr ⟨rfl, rfl⟩)⟩
  case other =>
    obtain heq | harmed | hidle := step_endsNone h hm dir e
    · exact ⟨fun _ _ => heq, fun _ => heq⟩
    · exact ⟨fun n hn => (by cases harmed.symm.trans hn), fun hf => (by cases harmed.symm.trans hf)⟩
    · exact ⟨fun n hn => (by cases hidle.symm.trans hn), fun hf => (by cases hidle.symm.trans hf)⟩

end Sys2Proof.Machine

/-! SUPPORT. Proofs of the statements about a task's wait (43_transfer_api R123, R124, R127): what a command and a poll do to
the tasks, what a poll leaves, and that with one task no poll sees Idle. -/

namespace Sys2Proof.Machine

/-! ## Tasks and the descriptors they wait for -/

theorem TasksProgress.length_eq {s t : State} (h : TasksProgress s t) : t.tasks.length = s.tasks.length := by
  simpa using congrArg List.length h.prog_eq

/-- What holds of every task and of the one that changed holds of every task after. -/
theorem OtherTasks.forall_mem {P : Task → Prop} {j : Nat} {s t : State} {k : Task} (ho : OtherTasks j s t)
    (ht : t.tasks[j]? = some k) (hk : P k) (hs : ∀ k ∈ s.tasks, P k) : ∀ k ∈ t.tasks, P k := by
  intro k' hk'
  obtain ⟨i, hi⟩ := List.mem_iff_getElem?.1 hk'
  by_cases hij : i = j
  · subst hij
    obtain rfl : k = k' := Option.some.inj (ht.symm.trans hi)
    exact hk
  · exact hs k' (List.mem_of_getElem? ((ho i hij).symm.trans hi))

theorem Task.next_not_waiting (k : Task) (r : Option Word) (dir : Dir) (e : Ep) (t0 : Nat) (tmo : Word) :
    (k.next r).phase ≠ .waiting dir e t0 tmo := fun h => by
  have hquiet := k.next_isWaiting r
  simp [Task.isWaiting, h] at hquiet

/-- A command leaves tasks and descriptors alone, completes, or arms (10_state R46). -/
theorem PortEffect.task_cases {s t : State} (h : PortEffect s t) :
    Grows [.refused, .fault] s t ∨ (∃ r, Completed s.cur r s t) ∨ Arms s t := by
  cases h with
  | refused r => exact .inl ((refuse_grows r s).mono (by decide))
  | race a => exact .inl ((raise_grows _ s).mono (by decide))
  | error v => exact .inr (.inl ⟨_, returnRes_completed v rfl rfl⟩)
  | armIn e size buf tmo t hv hgo =>
    obtain ⟨u, hu, harms⟩ := armIn_arms tmo hv
    cases hu.symm.trans hgo
    exact .inr (.inr harms)
  | armOut e size buf tmo hv => exact .inr (.inr (armOut_arms tmo hv))
  | armSetup e size buf tmo hv => exact .inr (.inr (armSetup_arms tmo hv))
  | _ => exact .inr (.inl ⟨none, advance_completed rfl rfl⟩)

theorem wait_grows (dir : Dir) (e : Ep) (tmo : Word) (s : State) : Grows [.tasks] s (wait dir e tmo s) := onCur_grows _ s

theorem returnRes_grows (v : Word) (s : State) : Grows [.tasks] s (returnRes v s) := onCur_grows _ s

/-- An arm leaves its task waiting for a descriptor that it has made Armed (43_transfer_api R120 to R122). -/
theorem Arms.waits_armed {s t : State} (h : Arms s t) :
    ∃ dir e tmo, Waits dir e tmo s t ∧ (descriptor t dir e).status = .armed := by
  obtain ⟨-, dir, e, buf, size, tmo, n, u, -, -, hu, rfl⟩ := h
  have hsu := ((setDescriptor_grows dir e _ s).trans (.of_only hu (by decide))).only
  refine ⟨dir, e, tmo,
    wait_waits dir e tmo (hsu .tasks (by decide)) (hsu .cur (by decide)) (hsu .now (by decide)), ?_⟩
  rw [descriptor_of_grows (wait_grows dir e tmo u) (by decide), descriptor_of_grows (.of_only hu (by decide)) (by decide),
    descriptor_setDescriptor, if_pos ⟨rfl, rfl⟩]
  rfl

/-! ## A Done task has no command left (10_state R46) -/

theorem Task.next_done {k : Task} {r : Option Word} (h : (k.next r).phase = .done) :
    dropCommands (k.next r).pc (k.next r).prog = [] := by
  by_contra hne
  simp only [Task.next] at h hne
  rw [if_neg hne] at h
  cases h

theorem DoneAtEnd.of_grows {ps : List Part} {s t : State} (hs : DoneAtEnd s) (h : Grows ps s t) (hps : .tasks ∉ ps) :
    DoneAtEnd t := by
  have htasks : t.tasks = s.tasks := h.only .tasks hps
  unfold DoneAtEnd
  rwa [htasks]

theorem DoneAtEnd.completed {j : Nat} {r : Option Word} {s t : State} {k : Task} (hs : DoneAtEnd s)
    (hk : s.tasks[j]? = some k) (h : Completed j r s t) : DoneAtEnd t :=
  h.2.forall_mem (h.1 k hk) Task.next_done hs

theorem DoneAtEnd.port {s t : State} {k : Task} (hs : DoneAtEnd s) (hk : s.tasks[s.cur]? = some k)
    (h : PortEffect s t) : DoneAtEnd t := by
  obtain hgrows | ⟨r, hr⟩ | harms := h.task_cases
  · exact hs.of_grows hgrows (by decide)
  · exact hs.completed hk hr
  · obtain ⟨dir, e, tmo, hw⟩ := harms.waits
    exact hw.2.forall_mem (hw.1 k hk) (fun hp => by cases hp) hs

theorem DoneAtEnd.poll {s : State} {k : Task} (dir : Dir) (e : Ep) (t0 : Nat) (tmo : Word) (hs : DoneAtEnd s)
    (hk : s.tasks[s.cur]? = some k) : DoneAtEnd (poll dir e t0 tmo s) := by
  obtain h | ⟨v, hv⟩ := (poll_effect dir e t0 tmo s).2
  · rwa [h]
  · exact hs.completed hk hv

theorem DoneAtEnd.step {s t : State} (hs : DoneAtEnd s) (h : step s = .next t) : DoneAtEnd t := by
  refine step_keeps (P := DoneAtEnd) ?sched ?cmd ?poll ?disp ?bus ?tick ?refuse ?observe hs h
  case sched => exact fun s sched turns draws cur hs => hs
  case cmd => exact fun i s t k hi hk _ hs he => hs.port hk (port_effect hi he)
  case poll => exact fun s k dir e t0 tmo hk _ hs => hs.poll dir e t0 tmo hk
  case disp => exact fun s _ hs => (dispatch_grows s).mono fun t ht => hs.of_grows ht (by decide)
  case bus => exact fun m s _ hs => hs.of_grows (busEffect_grows m s) (by decide)
  case tick => exact fun s hs => hs.of_grows (tick_grows s) (by decide)
  case refuse => exact fun r s hs => hs.of_grows (refuse_grows r s) (by decide)
  case observe => exact fun n s hs => hs.of_grows (raise_grows _ s) (by decide)

/-! ## With one task no poll sees Idle (43_transfer_api R123) -/

theorem Descriptor.Iterated.not_idle {d d' : Descriptor} (h : d.Iterated d') (hd : d.status ≠ .idle) :
    d'.status ≠ .idle := by
  obtain (rfl | ⟨-, -, -, harmed | hcomplete⟩) | rfl := h
  · exact hd
  · simp [harmed]
  · simp [hcomplete]
  · by_cases ha : d.status = .armed
    · simp [d.afterReset_eq.1 ha]
    · rwa [d.afterReset_eq.2 ha]

/-- The only task decides: it does not wait, or the descriptor that it waits for is not Idle. -/
theorem WaitedNotIdle.of_task {t : State} {j : Nat} {k : Task} (hlen : t.tasks.length ≤ 1) (hk : t.tasks[j]? = some k)
    (h : ∀ dir e t0 tmo, k.phase = .waiting dir e t0 tmo → (descriptor t dir e).status ≠ .idle) : WaitedNotIdle t := by
  refine ⟨hlen, fun k' hk' => ?_⟩
  obtain ⟨a, ha⟩ := List.length_eq_one_iff.1 (Nat.le_antisymm hlen (List.length_pos_of_mem hk'))
  rw [ha] at hk' hk
  obtain rfl : k' = a := List.mem_singleton.1 hk'
  obtain rfl : k = k' := List.mem_singleton.1 (List.mem_of_getElem? hk)
  exact h

/-- What leaves the tasks alone, and no descriptor that was not Idle becomes so. -/
theorem WaitedNotIdle.of_not_idle {s t : State} (hs : WaitedNotIdle s) (htasks : t.tasks = s.tasks)
    (h : ∀ dir e, (descriptor s dir e).status ≠ .idle → (descriptor t dir e).status ≠ .idle) : WaitedNotIdle t := by
  obtain ⟨hlen, hwait⟩ := hs
  unfold WaitedNotIdle
  rw [htasks]
  exact ⟨hlen, fun k hk dir e t0 tmo hp => h dir e (hwait k hk dir e t0 tmo hp)⟩

theorem WaitedNotIdle.of_grows {ps : List Part} {s t : State} (hs : WaitedNotIdle s) (h : Grows ps s t)
    (hps : ∀ p ∈ [Part.tasks, .din, .dout], p ∉ ps) : WaitedNotIdle t :=
  hs.of_not_idle (h.only .tasks (hps .tasks (by decide))) fun dir e hd => by
    rwa [descriptor_of_grows h (fun p hp => hps p (List.mem_cons_of_mem _ hp)) dir e]

theorem WaitedNotIdle.completed {j : Nat} {r : Option Word} {s t : State} {k : Task} (hlen : t.tasks.length ≤ 1)
    (hk : s.tasks[j]? = some k) (h : Completed j r s t) : WaitedNotIdle t :=
  .of_task hlen (h.1 k hk) fun dir e t0 tmo hp => absurd hp (k.next_not_waiting r dir e t0 tmo)

theorem WaitedNotIdle.port {s t : State} {k : Task} (hs : WaitedNotIdle s) (hk : s.tasks[s.cur]? = some k)
    (hp : k.phase = .ready) (h : PortEffect s t) : WaitedNotIdle t := by
  have hlen : t.tasks.length ≤ 1 := (h.tasksProgress hk (by simp [hp])).length_eq ▸ hs.1
  obtain hgrows | ⟨r, hr⟩ | harms := h.task_cases
  · exact hs.of_grows hgrows (by decide)
  · exact .completed hlen hk hr
  · obtain ⟨dir, e, tmo, hw, harmed⟩ := harms.waits_armed
    refine .of_task hlen (hw.1 k hk) fun dir' e' t0 tmo' hp' => ?_
    cases hp'
    simp [harmed]

theorem WaitedNotIdle.poll {s : State} {k : Task} {dir : Dir} {e : Ep} {t0 : Nat} {tmo : Word} (hs : WaitedNotIdle s)
    (hk : s.tasks[s.cur]? = some k) (hp : k.phase ≠ .done) : WaitedNotIdle (poll dir e t0 tmo s) := by
  obtain h | ⟨v, hv⟩ := (poll_effect dir e t0 tmo s).2
  · rwa [h]
  · exact .completed ((TasksProgress.of_completed hk hp hv).length_eq ▸ hs.1) hk hv

/-- An iteration ends descriptors and does not return them to Idle (42_bus_event_handler R105, R106). -/
theorem WaitedNotIdle.dispatch {s : State} (hs : WaitedNotIdle s) : (dispatch s).Within WaitedNotIdle :=
  ((dispatch_grows s).and (dispatch_iterated s)).mono fun _ ⟨hgrows, hiter⟩ =>
    hs.of_not_idle (hgrows.only .tasks (by decide)) fun dir e => (hiter dir e).not_idle

theorem WaitedNotIdle.step {s t : State} (hs : WaitedNotIdle s) (h : step s = .next t) : WaitedNotIdle t := by
  refine step_keeps (P := WaitedNotIdle) ?sched ?cmd ?poll ?disp ?bus ?tick ?refuse ?observe hs h
  case sched => exact fun s sched turns draws cur hs => hs
  case cmd => exact fun i s t k hi hk hp hs he => hs.port hk hp (port_effect hi he)
  case poll => exact fun s k dir e t0 tmo hk hp hs => hs.poll hk (by simp [hp])
  case disp => exact fun s _ hs => hs.dispatch
  case bus => exact fun m s _ hs => hs.of_grows (busEffect_grows m s) (by decide)
  case tick => exact fun s hs => hs.of_grows (tick_grows s) (by decide)
  case refuse => exact fun r s hs => hs.of_grows (refuse_grows r s) (by decide)
  case observe => exact fun n s hs => hs.of_grows (raise_grows _ s) (by decide)

/-- Settles O60: an arm makes Armed the descriptor that its task waits for, only the task's own poll returns it to Idle, and
that poll ends the wait; a completed command marks its task Done only at the end of the list. -/
theorem singleTaskNeverWaitsOnIdle : Obligations.SingleTaskNeverWaitsOnIdle := by
  unfold Obligations.SingleTaskNeverWaitsOnIdle
  exact ⟨fun _ _ hs h => hs.step h, fun _ _ hs h => hs.step h⟩

/-! ## A waiting task's turn (43_transfer_api R123, R127) -/

/-- A waiting task's turn is its poll. -/
theorem step_of_waiting {s : State} {j : Nat} {k : Task} {dir : Dir} {e : Ep} {t0 : Nat} {tmo : Word}
    (hm : (nextTurn s).move = .task j) (hk : s.tasks[j]? = some k) (hp : k.phase = .waiting dir e t0 tmo) :
    step s = .next (poll dir e t0 tmo (taskState j s)) := by
  rw [step_of_task hm hk, taskTurn, hp]

/-- The poll's cases, by what the descriptor and the clock are before the turn. -/
theorem poll_taskState_cases (dir : Dir) (e : Ep) (t0 : Nat) (tmo : Word) (j : Nat) (s : State) :
    (∃ n, (descriptor s dir e).status = .complete n ∧
      poll dir e t0 tmo (taskState j s) = endWait dir e n (taskState j s)) ∨
    ((descriptor s dir e).status = .failed .reset ∧
      poll dir e t0 tmo (taskState j s) = endWait dir e (-3) (taskState j s)) ∨
    (((descriptor s dir e).status = .armed ∨ (descriptor s dir e).status = .idle) ∧
      tmo.toNat < elapsed s.cfg s.now t0 ∧
      poll dir e t0 tmo (taskState j s) = endWait dir e (-2) (timeoutRecover dir e (taskState j s))) ∨
    (((descriptor s dir e).status = .armed ∨ (descriptor s dir e).status = .idle) ∧
      ¬ tmo.toNat < elapsed s.cfg s.now t0 ∧ poll dir e t0 tmo (taskState j s) = taskState j s) := by
  have hturn := taskState_grows j s
  have hnow : (taskState j s).now = s.now := hturn.only .now (by decide)
  have h := poll_cases dir e t0 tmo (taskState j s)
  rwa [descriptor_of_grows hturn (by decide) dir e, hturn.sticky.cfg, hnow] at h

theorem Completed.of_tasks_eq {j : Nat} {r : Option Word} {s u t : State} (h : Completed j r u t)
    (htasks : u.tasks = s.tasks) : Completed j r s t := by
  unfold Completed OtherTasks at h ⊢
  rwa [htasks] at h

theorem endWait_completed (dir : Dir) (e : Ep) (v : Word) (s : State) :
    Completed s.cur (some v) s (endWait dir e v s) := by
  have hd := (setDescriptor_grows dir e { descriptor s dir e with status := .idle } s).only
  exact returnRes_completed v (hd .tasks (by decide)) (hd .cur (by decide))

/-- The end of a wait of task j, which runs in `u`, completes its command. -/
theorem endWait_completed_of_only {ps : List Part} {j : Nat} {s u : State} (dir : Dir) (e : Ep) (v : Word)
    (hu : OnlyChanges ps s u) (hps : .tasks ∉ ps) (hcur : u.cur = j) : Completed j (some v) s (endWait dir e v u) :=
  (hcur ▸ endWait_completed dir e v u).of_tasks_eq (hu .tasks hps)

/-- A step that is not task j's leaves task j as it is (43_transfer_api R127). -/
theorem step_tasks_other {s t : State} {j : Nat} (h : step s = .next t) (hm : (nextTurn s).move ≠ .task j) :
    t.tasks[j]? = s.tasks[j]? := by
  have hkeep : ∀ {ps u}, Grows ps s u → .tasks ∉ ps → u.tasks[j]? = s.tasks[j]? := fun hu hps => by
    rw [hu.only .tasks hps]
  have hother : ∀ {i u v}, (nextTurn s).move = .task i → Grows [.cur, .draws, .sched] s u → OtherTasks i u v →
      v.tasks[j]? = s.tasks[j]? := fun hi hu hv =>
    (hv j fun hij => hm (hij ▸ hi)).trans (hkeep hu (by decide))
  have hafter := afterTurn_grows s
  obtain ⟨i, k, c, hi, -, -, hc, he⟩ | ⟨i, k, r, -, -, -, -, rfl⟩ | ⟨i, k, dir, e, t0, tmo, hi, -, -, rfl⟩ |
    ⟨i, k, -, -, -, rfl⟩ | ⟨i, -, -, rfl⟩ | ⟨-, -, hd⟩ | ⟨-, -, rfl⟩ | ⟨m, -, -, rfl⟩ | ⟨m, -, -, rfl⟩ | ⟨-, rfl⟩ |
    ⟨i, -, rfl⟩ := step_cases h
  · have hturn := taskState_grows i s
    obtain htasks | ⟨r, hr⟩ | ⟨dir, e, tmo, hw⟩ := (port_effect (decodeCommand_port hc) he).tasks
    · rw [htasks]
      exact hkeep hturn (by decide)
    · exact hother hi hturn hr.2
    · exact hother hi hturn hw.2
  · exact hkeep ((taskState_grows i s).trans (rejectWord_grows r _)) (by decide)
  · obtain hp | ⟨v, hv⟩ := (poll_effect dir e t0 tmo (taskState i s)).2
    · rw [hp]
      exact hkeep (taskState_grows i s) (by decide)
    · exact hother hi (taskState_grows i s) hv.2
  · exact hkeep (taskState_grows i s) (by decide)
  · exact hkeep hafter (by decide)
  · exact hkeep (hafter.trans ((dispatch_grows _).outcome hd)) (by decide)
  · exact hkeep hafter (by decide)
  · exact hkeep (hafter.trans (busEffect_grows m _)) (by decide)
  · exact hkeep hafter (by decide)
  · exact hkeep (hafter.trans (tick_grows _)) (by decide)
  · exact hkeep (hafter.trans (observe_grows i _)) (by decide)

/-- Settles O25: another agent's step leaves the task alone, and its own is a poll, by its cases. -/
theorem waitEndsOnlyByPoll : Obligations.WaitEndsOnlyByPoll := by
  unfold Obligations.WaitEndsOnlyByPoll
  intro s t j k hk h
  have hother : (nextTurn s).move ≠ .task j → t.tasks[j]? = some k := fun hm => (step_tasks_other h hm).trans hk
  refine ⟨hother, fun dir e t0 tmo hp => ?_⟩
  by_cases hm : (nextTurn s).move = .task j
  case neg => exact .inl (hother hm)
  rw [step_of_waiting hm hk hp] at h
  have hturn := taskState_grows j s
  have hends : ∀ {u v}, Grows [.iep, .oep, .txq] (taskState j s) u →
      (endWait dir e v u).tasks[j]? = some (k.next (some v)) := fun hu =>
    (endWait_completed_of_only dir e _ (hturn.trans hu).only (by decide) (hu.only .cur (by decide))).1 k hk
  cases h
  obtain ⟨n, hn, heq⟩ | ⟨hf, heq⟩ | ⟨hd, hlate, heq⟩ | ⟨-, -, heq⟩ := poll_taskState_cases dir e t0 tmo j s <;> rw [heq]
  · exact .inr ⟨n, hends (.refl _ _), .inl hn⟩
  · exact .inr ⟨-3, hends (.refl _ _), .inr (.inl ⟨hf, rfl⟩)⟩
  · exact .inr ⟨-2, hends (timeoutRecover_grows dir e _), .inr (.inr ⟨hd, hlate, rfl⟩)⟩
  · exact .inl ((congrArg (·[j]?) (hturn.only .tasks (by decide))).trans hk)

/-! ## What a poll leaves (43_transfer_api R123, R124) -/

/-- The parts that a task's turn itself changes. -/
def turnParts : List Part := [.cur, .draws, .sched]

/-- Task j's wait for a descriptor ends with `v`: the command completes, the descriptor is Idle, and apart from the turn and
`parts` nothing else changes. -/
def WaitEnds (j : Nat) (dir : Dir) (e : Ep) (v : Word) (parts : List Part) (s t : State) : Prop :=
  Completed j (some v) s t ∧ descriptor t dir e = { descriptor s dir e with status := .idle } ∧
  SameBut e s.din t.din ∧ SameBut e s.dout t.dout ∧
  OnlyChanges (turnParts ++ [if dir = .inn then .din else .dout, .tasks] ++ parts) s t

theorem setDescriptor_only (dir : Dir) (e : Ep) (d : Descriptor) (s : State) :
    OnlyChanges [if dir = .inn then .din else .dout] s (setDescriptor s dir e d) := by
  cases dir with
  | inn => exact (setDin_grows e d s).only
  | out => exact (setDout_grows e d s).only

theorem setDescriptor_sameBut (dir : Dir) (e : Ep) (d : Descriptor) (s : State) :
    SameBut e s.din (setDescriptor s dir e d).din ∧ SameBut e s.dout (setDescriptor s dir e d).dout := by
  cases dir with
  | inn => exact ⟨s.din.sameBut_set e d, fun _ _ => rfl⟩
  | out => exact ⟨fun _ _ => rfl, s.dout.sameBut_set e d⟩

theorem endWait_only (dir : Dir) (e : Ep) (v : Word) (s : State) :
    OnlyChanges [if dir = .inn then .din else .dout, .tasks] s (endWait dir e v s) :=
  ((setDescriptor_only dir e _ s).mono (by simp)).trans ((returnRes_grows v _).only.mono (by simp))

theorem endWait_descriptor (dir : Dir) (e : Ep) (v : Word) (s : State) :
    descriptor (endWait dir e v s) dir e = { descriptor s dir e with status := .idle } := by
  unfold endWait
  rw [descriptor_of_grows (returnRes_grows v _) (by decide), descriptor_setDescriptor, if_pos ⟨rfl, rfl⟩]

/-- The end of a wait, past a turn and a recovery that leave tasks and descriptors alone. -/
theorem endWait_waitEnds {parts : List Part} {j : Nat} {s u : State} (dir : Dir) (e : Ep) (v : Word)
    (hu : Grows (turnParts ++ parts) s u) (hps : ∀ p ∈ [Part.tasks, .din, .dout], p ∉ turnParts ++ parts)
    (hcur : u.cur = j) : WaitEnds j dir e v parts s (endWait dir e v u) := by
  have hdin : u.din = s.din := hu.only .din (hps .din (by decide))
  have hdout : u.dout = s.dout := hu.only .dout (hps .dout (by decide))
  have hdesc := descriptor_of_grows hu (fun p hp => hps p (List.mem_cons_of_mem _ hp)) dir e
  obtain ⟨hsin, hsout⟩ := setDescriptor_sameBut dir e { descriptor u dir e with status := .idle } u
  refine ⟨endWait_completed_of_only dir e v hu.only (hps .tasks (by decide)) hcur, ?desc, ?din, ?dout, ?frame⟩
  case desc => rw [endWait_descriptor, hdesc]
  case din =>
    rw [← hdin]
    simpa [endWait] using hsin
  case dout =>
    rw [← hdout]
    simpa [endWait] using hsout
  case frame =>
    exact (hu.only.mono fun p hp => by simp only [List.mem_append] at hp ⊢; tauto).trans
      ((endWait_only dir e v u).mono fun p hp => by simp only [List.mem_append]; tauto)

section Poll

variable {dir : Dir} {e : Ep} {t0 : Nat} {tmo : Word} {s : State}

theorem poll_of_complete {n : Word} (h : (descriptor s dir e).status = .complete n) :
    poll dir e t0 tmo s = endWait dir e n s := by
  simp [poll, h]

theorem poll_of_failed (h : (descriptor s dir e).status = .failed .reset) :
    poll dir e t0 tmo s = endWait dir e codeReset s := by
  simp [poll, h]

/-- Within its budget a poll of a descriptor that has not ended yields. -/
theorem poll_of_within (h : (descriptor s dir e).status = .armed ∨ (descriptor s dir e).status = .idle)
    (ht : elapsed s.cfg s.now t0 ≤ tmo.toNat) : poll dir e t0 tmo s = s := by
  obtain h | h := h <;> simp [poll, h, Nat.not_lt.2 ht]

/-- Past its budget it recovers and returns Timeout. -/
theorem poll_of_expired (h : (descriptor s dir e).status = .armed ∨ (descriptor s dir e).status = .idle)
    (ht : tmo.toNat < elapsed s.cfg s.now t0) :
    poll dir e t0 tmo s = endWait dir e codeTimeout (timeoutRecover dir e s) := by
  obtain h | h := h <;> simp [poll, h, ht]

end Poll

theorem timeoutRecover_inn_grows (e : Ep) (s : State) : Grows [.iep, .txq] s (timeoutRecover .inn e s) :=
  (setIep_grows e _ s).trans (setTxq_grows e _ _)

theorem timeoutRecover_out_grows (e : Ep) (s : State) : Grows [.oep] s (timeoutRecover .out e s) := setOep_grows e _ s

section Fields

variable (dir : Dir) (e : Ep) (v : Word) (s : State)

@[simp] theorem endWait_iep : (endWait dir e v s).iep = s.iep := (endWait_grows dir e v s).only .iep (by decide)
@[simp] theorem endWait_oep : (endWait dir e v s).oep = s.oep := (endWait_grows dir e v s).only .oep (by decide)
@[simp] theorem endWait_txq : (endWait dir e v s).txq = s.txq := (endWait_grows dir e v s).only .txq (by decide)
@[simp] theorem timeoutRecover_inn_iep :
    (timeoutRecover .inn e s).iep = s.iep.set e { s.iep.get e with epena := false, nak := true } := rfl
@[simp] theorem timeoutRecover_inn_txq : (timeoutRecover .inn e s).txq = s.txq.set e [] := rfl
@[simp] theorem timeoutRecover_out_oep :
    (timeoutRecover .out e s).oep = s.oep.set e { s.oep.get e with epena := false, nak := true } := rfl

end Fields

/-- Settles O24: the poll's cases, each the end of the wait in the turn's state or past the recovery of a timeout. -/
theorem pollOutcomes : Obligations.PollOutcomes := by
  unfold Obligations.PollOutcomes
  refine ⟨fun cfg now t0 => ⟨elapsed_lt cfg now t0, add_elapsed cfg now t0⟩, ?_⟩
  intro s j k dir e t0 tmo hm hk hp d turn ends
  rw [step_of_waiting hm hk hp]
  have hturn := taskState_grows j s
  have hd : descriptor (taskState j s) dir e = d := descriptor_of_grows hturn (by decide) dir e
  have hnow : (taskState j s).now = s.now := hturn.only .now (by decide)
  have hiep : (taskState j s).iep = s.iep := hturn.only .iep (by decide)
  have hoep : (taskState j s).oep = s.oep := hturn.only .oep (by decide)
  have htxq : (taskState j s).txq = s.txq := hturn.only .txq (by decide)
  rw [← hd, ← hnow, ← hturn.sticky.cfg]
  refine ⟨fun n hn => ?complete, fun hf => ?failed, fun ha ht => ?within, fun ha ht hdir => ?expiredIn,
    fun ha ht hdir => ?expiredOut⟩
  case complete => exact ⟨_, by rw [poll_of_complete hn], endWait_waitEnds dir e n hturn (by decide) rfl⟩
  case failed => exact ⟨_, by rw [poll_of_failed hf], endWait_waitEnds dir e codeReset hturn (by decide) rfl⟩
  case within => exact ⟨_, by rw [poll_of_within ha ht], hturn.only⟩
  case expiredIn =>
    subst hdir
    rw [poll_of_expired ha ht]
    refine ⟨_, rfl, by simp [hiep], by simp, ?bank, ?fifo,
      endWait_waitEnds .inn e codeTimeout (hturn.trans (timeoutRecover_inn_grows e _)) (by decide) rfl⟩
    case bank => simpa [hiep] using s.iep.sameBut_set e _
    case fifo => simpa [htxq] using s.txq.sameBut_set e _
  case expiredOut =>
    subst hdir
    rw [poll_of_expired ha ht]
    refine ⟨_, rfl, by simp [hoep], ?bank,
      endWait_waitEnds .out e codeTimeout (hturn.trans (timeoutRecover_out_grows e _)) (by decide) rfl⟩
    case bank => simpa [hoep] using s.oep.sameBut_set e _

end Sys2Proof.Machine

/-! SUPPORT. Proofs of the statements about arm steps and direct operations (43_transfer_api R116 to R122, R128 to R132): the
packet count, the seven checks as one chain, and what each arm writes past them. -/

namespace Sys2Proof.Machine

/-! ## Packet counts (00_scope R13, 43_transfer_api R116) -/

/-- `ceilDiv` is the least number whose multiple holds the size. -/
theorem ceilDiv_le_iff {a b q : Nat} (hb : 1 ≤ b) : ceilDiv a b ≤ q ↔ a ≤ q * b := by
  rw [ceilDiv, ← Nat.ceilDiv_eq_add_pred_div, ceilDiv_le_iff_le_mul hb, Nat.mul_comm]

theorem ceilDiv_zero (b : Nat) : ceilDiv 0 b = 0 := by
  unfold ceilDiv
  rw [Nat.div_eq_zero_iff]
  omega

/-- Settles O9: the count is the larger of 1 and `ceilDiv`, the least number whose multiple holds the size. -/
theorem packetCountLaw : Obligations.PacketCountLaw := by
  unfold Obligations.PacketCountLaw
  refine ⟨fun size mps hmps => ⟨ceilDiv size mps, rfl, ?holds, fun r hr => ?least⟩, fun n => ?empty⟩
  case holds => exact (ceilDiv_le_iff hmps).1 le_rfl
  case least => exact (ceilDiv_le_iff hmps).2 hr
  case empty => rw [packetCount, ceilDiv_zero]; rfl

/-! ## Direct operations (43_transfer_api R128 to R132) -/

theorem exec_setDeviceAddress (addr : BitVec 7) (s : State) : exec (.setDeviceAddress addr) s =
    .next (directOp (fun s => (s.setCore { s.core with dad := addr }).emit (.addressAssigned addr)) s) := by
  rfl

theorem exec_stallInEp (e : Ep) (s : State) :
    exec (.stallInEp e) s = .next (directOp (fun s => s.setIep e { s.iep.get e with stall := true }) s) := by
  rfl

theorem exec_stallOutEp (e : Ep) (s : State) :
    exec (.stallOutEp e) s = .next (directOp (fun s => s.setOep e { s.oep.get e with stall := true }) s) := by
  rfl

theorem exec_disableInEp (e : Ep) (s : State) : exec (.disableInEp e) s = .next (directOp (disableIn e) s) := by
  rfl

theorem exec_disableOutEp (e : Ep) (s : State) : exec (.disableOutEp e) s = .next (directOp (disableOut e) s) := by
  rfl

theorem directOp_of_inited {f : State → State} {s : State} (hs : s.inited = true) : directOp f s = advance (f s) := by
  simp [directOp, hs]

/-- What a write of IN bank e leaves once its command completes. -/
theorem advance_setIep (e : Ep) (b : InBank) (s : State) :
    (advance (s.setIep e b)).iep.get e = b ∧ SameBut e s.iep (advance (s.setIep e b)).iep ∧
      Completed s.cur none s (advance (s.setIep e b)) ∧ OnlyChanges [.iep, .tasks] s (advance (s.setIep e b)) :=
  ⟨by simp, by simpa using s.iep.sameBut_set e b, advance_completed rfl rfl, (setIep_grows e b s).only.advance⟩

/-- What a write of OUT bank e leaves once its command completes. -/
theorem advance_setOep (e : Ep) (b : OutBank) (s : State) :
    (advance (s.setOep e b)).oep.get e = b ∧ SameBut e s.oep (advance (s.setOep e b)).oep ∧
      Completed s.cur none s (advance (s.setOep e b)) ∧ OnlyChanges [.oep, .tasks] s (advance (s.setOep e b)) :=
  ⟨by simp, by simpa using s.oep.sameBut_set e b, advance_completed rfl rfl, (setOep_grows e b s).only.advance⟩

/-- Settles O27: before `init` the shared refusal, else one write of a bank or of the address, and the command completes. -/
theorem directOperations : Obligations.DirectOperations := by
  unfold Obligations.DirectOperations
  refine fun e addr s => ⟨fun hs i hi => ?refused, fun hs => ?done⟩
  case refused =>
    simp only [List.mem_cons, List.not_mem_nil, or_false] at hi
    have hrefuse : ∀ f, directOp f s = refuse .notInited s := fun f => directOp_of_not_inited hs
    obtain rfl | rfl | rfl | rfl | rfl := hi <;> exact refuses_of_exec (congrArg _ (hrefuse _))
  case done =>
    rw [exec_setDeviceAddress, exec_stallInEp, exec_stallOutEp, exec_disableInEp, exec_disableOutEp]
    simp only [directOp_of_inited hs]
    refine ⟨⟨_, rfl, by simp, by simp, advance_completed rfl rfl, ?_⟩, ⟨_, rfl, advance_setIep e _ s⟩,
      ⟨_, rfl, advance_setOep e _ s⟩, ⟨_, rfl, advance_setIep e _ s⟩, ⟨_, rfl, advance_setOep e _ s⟩⟩
    exact ((setCore_grows _ s).trans (emit_grows _ _)).only.advance

/-! ## The seven checks (43_transfer_api R117 to R119) -/

theorem returns_of_exec {i : Instr} {v : Word} {s : State} (h : exec i s = .next (returnRes v s)) : Returns i v s :=
  ⟨_, h, returnRes_completed v rfl rfl, (returnRes_grows v s).only⟩

section Checks

variable {i : Instr} {s : State} {dir : Dir} {configured control armed : Bool} {limit : Option RefuseReason}
  {buf size : Nat} {arm : State → Ctl} {isControl isArmed : Prop} {isLimit : RefuseReason → Prop}
  (hx : exec i s = (armStep (armVerdict s.inited configured control armed limit (memBytes s.cfg) buf size
    (raceAddr s dir buf size)) arm s).outcome)
  (hcontrol : control = true ↔ isControl) (harmed : armed = true ↔ isArmed) (hlimit : ∀ r, limit = some r ↔ isLimit r)
include hx hcontrol harmed hlimit

/-- An arm step makes the seven checks in their order. -/
theorem armStep_armChecks : ArmChecks i s dir (configured = true) isControl isArmed isLimit buf size := by
  have hnone : (∀ r, ¬ isLimit r) → limit = none := fun h =>
    Option.eq_none_iff_forall_ne_some.2 fun r hr => h r ((hlimit r).1 hr)
  rw [← hcontrol, ← harmed]
  refine ⟨fun hs => ?notInited, fun hs hc => ?fatal, fun hs hc hk => ?notControl, fun hs hc hk ha => ?busy,
    fun r hs hc hk ha hl => ?limit, fun hs hc hk ha hl hw => ?bufWrap, fun a hs hc hk ha hl hw hrace => ?race⟩
  case notInited => exact refuses_of_exec (by simp [hx, armVerdict, armStep, hs])
  case fatal => exact returns_of_exec (by simp [hx, armVerdict, armStep, hs, hc, codeFatal])
  case notControl => exact refuses_of_exec (by simp [hx, armVerdict, armStep, hs, hc, hk])
  case busy => exact returns_of_exec (by simp [hx, armVerdict, armStep, hs, hc, hk, ha, codeBusy])
  case limit => exact refuses_of_exec (by simp [hx, armVerdict, armStep, hs, hc, hk, ha, (hlimit r).2 hl])
  case bufWrap => exact refuses_of_exec (by simp [hx, armVerdict, armStep, hs, hc, hk, ha, hnone hl, hw])
  case race =>
    refine ⟨_, ?_, raise_only (.bufferRace (BitVec.ofNat 32 a)) s⟩
    simp [hx, armVerdict, armStep, hs, hc, hk, ha, hnone hl, Nat.not_lt.2 hw, raceAddr_of_lowestOwned hrace]

/-- Past its checks an arm step is its arm. -/
theorem armStep_of_passes (h : ArmPasses s dir (configured = true) isControl isArmed isLimit buf size) :
    exec i s = (arm s).outcome := by
  obtain ⟨hs, hc, hk, ha, hl, hw, hrace⟩ := h
  have hnone : limit = none := Option.eq_none_iff_forall_ne_some.2 fun r hr => hl r ((hlimit r).1 hr)
  rw [← hcontrol] at hk
  rw [← harmed] at ha
  simp [hx, armVerdict, armStep, hs, hc, hk, ha, hnone, Nat.not_lt.2 hw, (raceAddr_eq_none s dir buf size).2 hrace]

end Checks

theorem exec_inTransfer (e : Ep) (size : BitVec 19) (buf tmo : Word) (s : State) : exec (.inTransfer e size buf tmo) s =
    (armStep (armVerdict s.inited (s.iep.get e).usbaep true (s.din.get e).isArmed (inLimit s e size.toNat)
      (memBytes s.cfg) buf.toNat size.toNat (raceAddr s .inn buf.toNat size.toNat)) (armIn e size buf tmo) s).outcome := by
  rfl

theorem exec_outTransfer (e : Ep) (size : BitVec 19) (buf tmo : Word) (s : State) : exec (.outTransfer e size buf tmo) s =
    (armStep (armVerdict s.inited (s.oep.get e).usbaep true (s.dout.get e).isArmed none
      (memBytes s.cfg) buf.toNat size.toNat (raceAddr s .out buf.toNat size.toNat))
      (fun s => .go (armOut e size buf tmo s)) s).outcome := by
  rfl

theorem exec_setupTransfer (e : Ep) (size : BitVec 19) (buf tmo : Word) (s : State) :
    exec (.setupTransfer e size buf tmo) s =
      (armStep (armVerdict s.inited (s.oep.get e).usbaep (decide ((s.oep.get e).eptyp = .control)) (s.dout.get e).isArmed
        none (memBytes s.cfg) buf.toNat size.toNat (raceAddr s .out buf.toNat size.toNat))
        (fun s => .go (armSetup e size buf tmo s)) s).outcome := by
  rfl

/-- Settles O21: the three arms are the one chain of checks, each on its own endpoint. -/
theorem armChecksInOrder : Obligations.ArmChecksInOrder := by
  unfold Obligations.ArmChecksInOrder
  refine fun e size buf tmo s => ⟨?inn, ?out, ?setup⟩
  case inn =>
    exact armStep_armChecks (exec_inTransfer e size buf tmo s) (by simp) (s.din.get e).isArmed_iff (inLimit_eq_some s e _)
  case out =>
    exact armStep_armChecks (exec_outTransfer e size buf tmo s) (by simp) (s.dout.get e).isArmed_iff (by simp)
  case setup =>
    exact armStep_armChecks (exec_setupTransfer e size buf tmo s) (by simp) (s.dout.get e).isArmed_iff (by simp)

/-! ## What the arms write (43_transfer_api R120 to R122) -/

theorem xfrsizMax_lt (c : Config) (e : Ep) : c.xfrsizMax e < 2 ^ 19 := by
  have h0 := c.xfrsizMaxEp0.isLt
  have hn := c.xfrsizMaxEpN.isLt
  unfold Config.xfrsizMax
  split <;> omega

theorem pktcntMaxIn_lt (c : Config) (e : Ep) : c.pktcntMaxIn e < 2 ^ 10 := by
  have h0 := c.pktcntMaxInEp0.isLt
  have hn := c.pktcntMaxInEpN.isLt
  unfold Config.pktcntMaxIn
  split <;> omega

theorem pktcntMaxOut_lt (c : Config) (e : Ep) : c.pktcntMaxOut e < 2 ^ 10 := by
  have h0 := c.pktcntMaxOutEp0.isLt
  have hn := c.pktcntMaxOutEpN.isLt
  unfold Config.pktcntMaxOut
  split <;> omega

/-- A count clamped to a maximum that fits the field is what the field holds. -/
theorem toNat_ofNat_min {w m : Nat} (n : Nat) (hm : m < 2 ^ w) : (BitVec.ofNat w (min n m)).toNat = min n m := by
  rw [BitVec.toNat_ofNat]
  exact Nat.mod_eq_of_lt (Nat.lt_of_le_of_lt (Nat.min_le_right n m) hm)

/-- The state an OUT or SETUP arm leaves, with the bank `b` that it programs. -/
def outArmed (e : Ep) (size : BitVec 19) (buf tmo : Word) (b : OutBank) (s : State) : State :=
  wait .out e tmo ((s.setDout e (armedDescriptor buf size)).setOep e b)

/-- The descriptor, the bank and the task of an OUT endpoint are written, and nothing else. -/
theorem outArmed_effect (e : Ep) (size : BitVec 19) (buf tmo : Word) (b : OutBank) (s : State) :
    let t := outArmed e size buf tmo b s
    Waits .out e tmo s t ∧ t.dout.get e = ⟨.armed, buf, size.setWidth 32, 0⟩ ∧ SameBut e s.dout t.dout ∧
      t.oep.get e = b ∧ SameBut e s.oep t.oep ∧ OnlyChanges [.dout, .oep, .tasks] s t := by
  refine ⟨wait_waits .out e tmo rfl rfl rfl, by simp [outArmed, armedDescriptor], ?others, by simp [outArmed], ?banks,
    (((setDout_grows e _ s).trans (setOep_grows e b _)).trans (wait_grows .out e tmo _)).only⟩
  case others => simpa [outArmed] using s.dout.sameBut_set e _
  case banks => simpa [outArmed] using s.oep.sameBut_set e b

/-- OUT_TRANSFER past its checks (43_transfer_api R121). -/
theorem exec_outTransfer_of_passes {e : Ep} {size : BitVec 19} {buf : Word} {s : State} (tmo : Word)
    (h : ArmPasses s .out ((s.oep.get e).usbaep = true) True ((s.dout.get e).status = .armed) (fun _ => False)
      buf.toNat size.toNat) :
    exec (.outTransfer e size buf tmo) s = .next (outArmed e size buf tmo { s.oep.get e with
      pktcnt := BitVec.ofNat 10 (outPktcnt s e size.toNat),
      xfrsiz := BitVec.ofNat 19 (outXfrsiz s e (outPktcnt s e size.toNat)), nak := false, epena := true } s) :=
  armStep_of_passes (exec_outTransfer e size buf tmo s) (by simp) (s.dout.get e).isArmed_iff (by simp) h

/-- SETUP_TRANSFER past its checks (43_transfer_api R122). -/
theorem exec_setupTransfer_of_passes {e : Ep} {size : BitVec 19} {buf : Word} {s : State} (tmo : Word)
    (h : ArmPasses s .out ((s.oep.get e).usbaep = true) ((s.oep.get e).eptyp = .control) ((s.dout.get e).status = .armed)
      (fun _ => False) buf.toNat size.toNat) :
    exec (.setupTransfer e size buf tmo) s = .next (outArmed e size buf tmo { s.oep.get e with
      stupcnt := BitVec.ofNat 2 (setupStupcnt s e size.toNat),
      xfrsiz := BitVec.ofNat 19 (outXfrsiz s e (setupStupcnt s e size.toNat)), nak := false, epena := true } s) :=
  armStep_of_passes (exec_setupTransfer e size buf tmo s) (by simp) (s.dout.get e).isArmed_iff (by simp) h

/-- Settles O23: both arms write the descriptor and the bank, and a clamped count fits its field. -/
theorem outAndSetupTransferArms : Obligations.OutAndSetupTransferArms := by
  unfold Obligations.OutAndSetupTransferArms
  refine ⟨fun e size buf tmo s hpass => ?out, fun e size buf tmo s hpass => ?setup⟩
  case out =>
    have heffect := outArmed_effect e size buf tmo { s.oep.get e with
      pktcnt := BitVec.ofNat 10 (outPktcnt s e size.toNat),
      xfrsiz := BitVec.ofNat 19 (outXfrsiz s e (outPktcnt s e size.toNat)), nak := false, epena := true } s
    obtain ⟨hwaits, hdesc, hdescs, hbank, hbanks, honly⟩ := heffect
    refine ⟨_, exec_outTransfer_of_passes tmo hpass, hwaits, hdesc, hdescs, ?_⟩
    rw [hbank]
    exact ⟨rfl, toNat_ofNat_min _ (pktcntMaxOut_lt s.cfg e), toNat_ofNat_min _ (xfrsizMax_lt s.cfg e), hbanks, honly⟩
  case setup =>
    have heffect := outArmed_effect e size buf tmo { s.oep.get e with
      stupcnt := BitVec.ofNat 2 (setupStupcnt s e size.toNat),
      xfrsiz := BitVec.ofNat 19 (outXfrsiz s e (setupStupcnt s e size.toNat)), nak := false, epena := true } s
    obtain ⟨hwaits, hdesc, hdescs, hbank, hbanks, honly⟩ := heffect
    refine ⟨_, exec_setupTransfer_of_passes tmo hpass, hwaits, hdesc, hdescs, ?_⟩
    rw [hbank]
    exact ⟨rfl, toNat_ofNat_min _ s.cfg.stupcntMax.isLt, toNat_ofNat_min _ (xfrsizMax_lt s.cfg e), hbanks, honly⟩

/-- Past check (5) the packet count is at most PKTCNT_MAX_IN (43_transfer_api R120). -/
theorem packetCount_le_of_noInLimit {s : State} {e : Ep} {size : Nat} (h : ∀ r, ¬ InLimit s e size r) :
    packetCount size (mpsIn s e) ≤ s.cfg.pktcntMaxIn e :=
  Nat.not_lt.1 fun hlt => h .tooLarge (.inl ⟨rfl, .inr hlt⟩)

/-- IN_TRANSFER past its checks (43_transfer_api R120). -/
theorem exec_inTransfer_of_passes {e : Ep} {size : BitVec 19} {buf : Word} {s : State} (tmo : Word)
    (h : ArmPasses s .inn ((s.iep.get e).usbaep = true) True ((s.din.get e).status = .armed) (InLimit s e size.toNat)
      buf.toNat size.toNat) : exec (.inTransfer e size buf tmo) s = (armIn e size buf tmo s).outcome :=
  armStep_of_passes (exec_inTransfer e size buf tmo s) (by simp) (s.din.get e).isArmed_iff (inLimit_eq_some s e _) h

/-- The state an IN arm leaves before its endpoint's kind counts: the descriptor `d` and the bank written. -/
def inProgrammed (e : Ep) (size : BitVec 19) (d : Descriptor) (s : State) : State :=
  (s.setDin e d).setIep e (armInBank (s.iep.get e) size (packetCount size.toNat (mpsIn s e)))

/-- The bytes that an isochronous arm pushes at once (43_transfer_api R120, 40_fifo_marshaling R93). -/
def seedWords (e : Ep) (buf : Word) (n : Nat) (s : State) : List Word :=
  packBytes (s.draws.pad.get e) (s.mem.readBytes buf.toNat n)

theorem seedWords_carries (e : Ep) (buf : Word) (n : Nat) (s : State) :
    Carries (seedWords e buf n s) n fun i => s.mem.readByte (buf.toNat + i) :=
  carries_packBytes _ (Memory.readBytes_length _ _ _) fun i hi => Memory.readBytes_getElem _ _ _ i hi

theorem armIn_of_not_isochronous {e : Ep} {s : State} (size : BitVec 19) (buf tmo : Word)
    (h : (s.iep.get e).eptyp ≠ .isochronous) : armIn e size buf tmo s =
      .go (wait .inn e tmo ((inProgrammed e size (armedDescriptor buf size) s).setCore
        { s.core with txfem := s.core.txfem.set e true })) := by
  unfold armIn
  exact if_neg h

/-- The state an isochronous arm leaves before its task waits: the offset is the count of the bytes pushed. -/
def inSeeded (e : Ep) (size : BitVec 19) (buf : Word) (n : Nat) (s : State) : State :=
  (inProgrammed e size { armedDescriptor buf size with off := BitVec.ofNat 32 n } s).setTxq e
    (s.txq.get e ++ seedWords e buf n s)

theorem armIn_of_isochronous {e : Ep} {s : State} {size : BitVec 19} {buf : Word} (tmo : Word)
    (h : (s.iep.get e).eptyp = .isochronous) (hfits : buf.toNat + size.toNat ≤ memBytes s.cfg) :
    armIn e size buf tmo s = .go (wait .inn e tmo (inSeeded e size buf (writeCount s e size.toNat) s)) := by
  have hle := writeCount_le s e size.toNat
  have hpush : writePacket e buf.toNat size.toNat (inProgrammed e size (armedDescriptor buf size) s) =
      .ok (writeCount s e size.toNat, (inProgrammed e size (armedDescriptor buf size) s).setTxq e
        (s.txq.get e ++ seedWords e buf (writeCount s e size.toNat) s)) :=
    (writePacket_cases e buf.toNat size.toNat (inProgrammed e size (armedDescriptor buf size) s)).elim And.right
      fun hout => absurd (Nat.lt_of_lt_of_le hout.1 (Nat.add_le_add_left hle _)) (Nat.not_lt.2 hfits)
  unfold inProgrammed at hpush
  simp only [armIn, h, if_true, hpush]
  simp [inSeeded, inProgrammed, State.setDin, State.setIep, State.setTxq]

/-- The descriptor and the bank are written and the task waits, whatever else of the endpoint the arm writes. -/
theorem inProgrammed_effect {ps : List Part} {e : Ep} {size : BitVec 19} {d : Descriptor} {s u : State} (tmo : Word)
    (hu : OnlyChanges ps (inProgrammed e size d s) u) (hps : ∀ p ∈ [Part.din, .iep, .tasks, .cur, .now], p ∉ ps) :
    let t := wait .inn e tmo u
    Waits .inn e tmo s t ∧ t.din.get e = d ∧ SameBut e s.din t.din ∧
      t.iep.get e = armInBank (s.iep.get e) size (packetCount size.toNat (mpsIn s e)) ∧ SameBut e s.iep t.iep ∧
      OnlyChanges ([.din, .iep] ++ ps ++ [.tasks]) s t := by
  intro t
  have hdin : t.din = s.din.set e d := (wait_din .inn e tmo u).trans (hu .din (hps .din (by decide)))
  have hiep : t.iep = s.iep.set e _ := (wait_iep .inn e tmo u).trans (hu .iep (hps .iep (by decide)))
  have hprog : OnlyChanges [.din, .iep] s (inProgrammed e size d s) :=
    ((setDin_grows e d s).trans (setIep_grows e _ _)).only
  rw [hdin, hiep]
  refine ⟨wait_waits .inn e tmo (hu .tasks (hps .tasks (by decide))) (hu .cur (hps .cur (by decide)))
    (hu .now (hps .now (by decide))), PerEp.get_set_self _ e d, PerEp.sameBut_set _ e d, PerEp.get_set_self _ e _,
    PerEp.sameBut_set _ e _, ?_⟩
  exact ((hprog.mono (by simp)).trans (hu.mono (by simp +contextual))).trans ((wait_grows .inn e tmo u).only.mono (by simp))

theorem armInBank_of_isochronous {b : InBank} (size : BitVec 19) (pc : Nat) (h : b.eptyp = .isochronous) :
    armInBank b size pc = { b with
      xfrsiz := size, pktcnt := (armInBank b size pc).pktcnt, mcnt := 1, nak := false, epena := true } := by
  simp [armInBank, h]

theorem armInBank_of_not_isochronous {b : InBank} (size : BitVec 19) (pc : Nat) (h : b.eptyp ≠ .isochronous) :
    armInBank b size pc = { b with
      xfrsiz := size, pktcnt := (armInBank b size pc).pktcnt, nak := false, epena := true } := by
  simp [armInBank, h]

/-- Settles O22: both kinds of endpoint are programmed alike; then the FIFO-empty interrupt is unmasked, or the seed is
pushed. -/
theorem inTransferArms : Obligations.InTransferArms := by
  unfold Obligations.InTransferArms
  intro e size buf tmo s hpass
  rw [exec_inTransfer_of_passes tmo hpass]
  obtain ⟨-, -, -, -, hlimit, hfits, -⟩ := hpass
  have hpc : (BitVec.ofNat 10 (packetCount size.toNat (mpsIn s e))).toNat = packetCount size.toNat (mpsIn s e) :=
    Nat.mod_eq_of_lt (Nat.lt_of_le_of_lt (packetCount_le_of_noInLimit hlimit) (pktcntMaxIn_lt s.cfg e))
  by_cases hiso : (s.iep.get e).eptyp = .isochronous
  case pos =>
    rw [armIn_of_isochronous tmo hiso hfits]
    obtain ⟨hwaits, hdesc, hdescs, hbank, hbanks, honly⟩ := inProgrammed_effect (u := inSeeded e size buf _ s) tmo
      (setTxq_grows e _ _).only (by decide)
    have htxq : (wait .inn e tmo (inSeeded e size buf (writeCount s e size.toNat) s)).txq = s.txq.set e _ :=
      wait_txq .inn e tmo _
    refine ⟨_, rfl, hwaits, ?_, hdescs, hbanks, fun hne => absurd hiso hne, fun _ => ?_⟩
    · rw [hbank]
      exact hpc
    · rw [hbank, htxq]
      exact ⟨hdesc, armInBank_of_isochronous size _ hiso, ⟨_, PerEp.get_set_self _ e _, seedWords_carries e buf _ s⟩,
        PerEp.sameBut_set _ e _, honly⟩
  case neg =>
    rw [armIn_of_not_isochronous size buf tmo hiso]
    obtain ⟨hwaits, hdesc, hdescs, hbank, hbanks, honly⟩ := inProgrammed_effect
      (u := (inProgrammed e size (armedDescriptor buf size) s).setCore _) tmo (setCore_grows _ _).only (by decide)
    refine ⟨_, rfl, hwaits, ?_, hdescs, hbanks, fun _ => ?_, fun h => absurd h hiso⟩
    · rw [hbank]
      exact hpc
    · rw [hbank]
      exact ⟨hdesc, armInBank_of_not_isochronous size _ hiso, wait_core .inn e tmo _, honly⟩

end Sys2Proof.Machine

/-! SUPPORT. Proofs of the statements about bus control (44_bus_control R133 to R135): how each command ends, what the
bring-up writes, and what a detached block no longer does. -/

namespace Sys2Proof.Machine

/-! ## How INIT ends (44_bus_control R133) -/

theorem exec_init_of_inited {s : State} (hs : s.inited = true) : exec .init s = .next (refuse .reInit s) := by
  simp [exec, execInit, initBlock, hs]

theorem exec_init_of_spinOut {s : State} (hs : s.inited = false) (hspin : s.draws.initSpinOk = false) :
    exec .init s = .next (returnRes codeFatal s) := by
  simp [exec, execInit, initBlock, hs, hspin]

theorem exec_init_of_spinOk {s : State} (hs : s.inited = false) (hspin : s.draws.initSpinOk = true) :
    exec .init s = .next (advance (bringUp s)) := by
  simp [exec, execInit, initBlock, hs, hspin]

/-- What the bring-up leaves as it was (10_state R50, its last words). -/
theorem bringUp_only (s : State) :
    OnlyChanges [.inited, .core, .iep, .oep, .rxq, .txq, .din, .dout, .busActive, .setupPending] s (bringUp s) :=
  fun p hp => by cases p <;> simp_all [Same, bringUp]

/-- The bring-up leaves every endpoint the same: both banks zero, its FIFO flushed, its descriptors Idle (10_state R50). -/
theorem bringUp_endpoint (s : State) (e : Ep) :
    (bringUp s).iep.get e = .zero ∧ (bringUp s).oep.get e = .zero ∧ (bringUp s).txq.get e = [] ∧
      (bringUp s).din.get e = .empty ∧ (bringUp s).dout.get e = .empty ∧ (bringUp s).setupPending.get e = false := by
  simp [bringUp]

/-- Settles O13: the two tests of INIT give its three outcomes, and the last is the bring-up. -/
theorem initOutcomes : Obligations.InitOutcomes := by
  unfold Obligations.InitOutcomes
  refine fun s => ⟨fun hs => ?again, fun hs hspin => ?fatal, fun hs hspin => ?done⟩
  case again => exact refuses_of_exec (exec_init_of_inited hs)
  case fatal => exact returns_of_exec (exec_init_of_spinOut hs hspin)
  case done =>
    refine ⟨_, exec_init_of_spinOk hs hspin, by simp [bringUp], ⟨s.draws.trdt, ?core⟩, fun e => ?endpoint,
      by simp [bringUp], by simp [bringUp], advance_completed rfl rfl, (bringUp_only s).advance⟩
    case core => exact advance_core (bringUp s)
    case endpoint =>
      simp only [advance_iep, advance_oep, advance_txq, advance_din, advance_dout, advance_setupPending]
      exact bringUp_endpoint s e

/-! ## CONNECT and DISCONNECT (44_bus_control R134, R135) -/

theorem exec_connect_of_inited {s : State} (hs : s.inited = true) : exec .connect s =
    .next (advance (s.setCore { s.core with
      sdis := false, clkgate := false, gint := s.cfg.connectRestoresGint || s.core.gint })) := by
  simp [exec, execConnect, connectBus, hs]

/-- The state DISCONNECT leaves before its command completes: pull-up off, clocks and interrupt gated, bus inactive. -/
def detached (s : State) : State :=
  { s with core := { s.core with sdis := true, clkgate := true, gint := false }, busActive := false }

theorem exec_disconnect_of_inited {s : State} (hs : s.inited = true) :
    exec .disconnect s = .next (advance (detached s)) := by
  simp [exec, execDisconnect, disconnectBus, detached, hs]

theorem detached_only (s : State) : OnlyChanges [.core, .busActive] s (detached s) :=
  fun p hp => by cases p <;> simp_all [Same, detached]

/-- With the interrupt gated no source reaches the dispatcher (10_state R24). -/
theorem masked_of_not_gint {s : State} (h : s.core.gint = false) : masked s = 0 := by
  simp [masked, h]

/-- With the pull-up off the bus agent has no move (45_bus_agent R136). -/
theorem busEnabled_of_sdis {s : State} (h : s.core.sdis = true) (m : BusMove) : busEnabled s m = false := by
  simp [busEnabled, busUp, h]

/-- Settles O14: before `init` the shared refusal; DISCONNECT's SDIS stops the bus agent and its GINT the dispatcher. -/
theorem connectAndDisconnect : Obligations.ConnectAndDisconnect := by
  unfold Obligations.ConnectAndDisconnect
  have hrefused {i : Instr} := commandsRefusedBeforeInit i
  refine fun s => ⟨fun hs => ⟨hrefused s rfl (by decide) hs, hrefused s rfl (by decide) hs⟩,
    fun hs => ⟨?connect, ?disconnect⟩⟩
  case connect =>
    exact ⟨_, exec_connect_of_inited hs, by simp, advance_completed rfl rfl, (setCore_grows _ s).only.advance⟩
  case disconnect =>
    have hcore : (advance (detached s)).core = { s.core with sdis := true, clkgate := true, gint := false } :=
      advance_core (detached s)
    refine ⟨_, exec_disconnect_of_inited hs, hcore, advance_busActive (detached s), masked_of_not_gint (by rw [hcore]),
      busEnabled_of_sdis (by rw [hcore]), advance_completed rfl rfl, (detached_only s).advance⟩

end Sys2Proof.Machine

/-! SUPPORT. Proofs of the statements about the bus agent and the clock (45_bus_agent R136 to R146): when a bus move is a
step, and what each move pushes, takes and writes. -/

namespace Sys2Proof.Machine

/-! ## What a turn hands on -/

section AfterTurn

variable (s : State)

@[simp] theorem afterTurn_core : (afterTurn s).core = s.core := afterTurn_only s .core (by decide)
@[simp] theorem afterTurn_iep : (afterTurn s).iep = s.iep := afterTurn_only s .iep (by decide)
@[simp] theorem afterTurn_oep : (afterTurn s).oep = s.oep := afterTurn_only s .oep (by decide)
@[simp] theorem afterTurn_rxq : (afterTurn s).rxq = s.rxq := afterTurn_only s .rxq (by decide)
@[simp] theorem afterTurn_txq : (afterTurn s).txq = s.txq := afterTurn_only s .txq (by decide)
@[simp] theorem afterTurn_setupPending : (afterTurn s).setupPending = s.setupPending :=
  afterTurn_only s .setupPending (by decide)
@[simp] theorem afterTurn_busTx : (afterTurn s).busTx = s.busTx := afterTurn_only s .busTx (by decide)

/-- What runs in a turn adds the turn's own changes to its frame. -/
theorem OnlyChanges.after_turn {s t : State} {ps : List Part} (h : OnlyChanges ps (afterTurn s) t) :
    OnlyChanges (ps ++ [.draws, .sched]) s t :=
  ((afterTurn_only s).mono fun _ => List.mem_append_right ps).trans (h.mono fun _ => List.mem_append_left _)

/-- A bus move is enabled by the state itself, whatever the turn's draws are. -/
theorem busEnabled_afterTurn (m : BusMove) : busEnabled (afterTurn s) m = busEnabled s m := by
  rw [afterTurn_eq]
  rfl

theorem outEnds_afterTurn (e : Ep) (len : Nat) : outEnds (afterTurn s) e len = outEnds s e len := by
  rw [afterTurn_eq]
  rfl

theorem inPacketBytes_afterTurn (e : Ep) : inPacketBytes (afterTurn s) e = inPacketBytes s e := by
  rw [afterTurn_eq]
  rfl

end AfterTurn

/-! ## When a bus move is a step (45_bus_agent R136, R142 to R145) -/

/-- A packet ends the transfer exactly when it is the last or a short one. -/
theorem outEnds_iff {s : State} {e : Ep} (len : Nat) (h : 0 < (s.oep.get e).pktcnt.toNat) :
    outEnds s e len = true ↔ (s.oep.get e).pktcnt.toNat = 1 ∨ len < mpsOut s e := by
  simp only [outEnds, Bool.or_eq_true, decide_eq_true_eq]
  omega

theorem busEnabled_iff (s : State) (m : BusMove) : busEnabled s m = true ↔ BusReady s m := by
  cases m with
  | reset | enumdone | iso | wake => simp [busEnabled, busUp, BusReady, and_assoc]
  | out e data dpid frm =>
    by_cases hpos : 0 < (s.oep.get e).pktcnt.toNat
    · simp [busEnabled, busUp, BusReady, outEnabled, and_assoc, outEnds_iff data.length hpos]
    · simp [busEnabled, BusReady, outEnabled, hpos]
  | setup => simp [busEnabled, busUp, BusReady, setupEnabled, and_assoc]
  | setupdone => simp [busEnabled, busUp, BusReady, setupdoneEnabled, and_assoc]
  | take e =>
    have hp : min (mpsIn s e) (s.iep.get e).xfrsiz.toNat = inPacketBytes s e := rfl
    simp [busEnabled, busUp, BusReady, takeEnabled, hp, and_assoc]

theorem step_of_bus {s : State} {m : BusMove} (hm : (nextTurn s).move = .bus m) :
    step s = .next (busTurn m (afterTurn s)) := by
  simp [step, runMove, hm]

theorem step_of_busReady {s : State} {m : BusMove} (hm : (nextTurn s).move = .bus m) (h : BusReady s m) :
    step s = .next (busEffect (afterTurn s) m) := by
  have hon : busEnabled (afterTurn s) m = true := (busEnabled_afterTurn s m).trans ((busEnabled_iff s m).2 h)
  rw [step_of_bus hm, busTurn, if_pos hon]

theorem step_of_not_busReady {s : State} {m : BusMove} (hm : (nextTurn s).move = .bus m) (h : ¬ BusReady s m) :
    step s = .next (afterTurn s) := by
  have hoff : ¬ busEnabled (afterTurn s) m = true := by rwa [busEnabled_afterTurn, busEnabled_iff]
  rw [step_of_bus hm, busTurn, if_neg hoff]

/-- Settles O41: a turn of the bus agent asks for just the preconditions of the rules. -/
theorem busMovesNeedTheBus : Obligations.BusMovesNeedTheBus := by
  unfold Obligations.BusMovesNeedTheBus
  intro s m hm
  refine ⟨fun h => ⟨_, step_of_not_busReady hm h, afterTurn_only s⟩, fun h => ?_⟩
  rw [step_of_busReady hm h, afterTurn_eq]

/-! ## Signals and the tick (45_bus_agent R138 to R141, R146) -/

/-- A move that only writes the global registers is a step of that write alone. -/
theorem step_of_signal {s : State} {m : BusMove} (latch : CoreRegs → CoreRegs)
    (heffect : ∀ u, busEffect u m = u.setCore (latch u.core)) (hm : (nextTurn s).move = .bus m) (h : BusReady s m) :
    ∃ t, step s = .next t ∧ t.core = latch s.core ∧ OnlyChanges [.core, .draws, .sched] s t := by
  refine ⟨_, step_of_busReady hm h, by simp [heffect], ?_⟩
  rw [heffect]
  exact (setCore_grows _ _).only.after_turn

theorem step_of_tick {s : State} (hm : (nextTurn s).move = .tick) : step s = .next (tick (afterTurn s)) := by
  simp [step, runMove, hm]

/-- A tick adds one millisecond to the clock, whatever the turn's draws are. -/
theorem tick_afterTurn_now (s : State) : (tick (afterTurn s)).now = (s.now + 1) % clockPeriod s.cfg := by
  rw [afterTurn_eq]
  rfl

/-- Settles O43: each signal is one write of its flag, and a tick is one of the clock. -/
theorem busSignalsAndTick : Obligations.BusSignalsAndTick := by
  unfold Obligations.BusSignalsAndTick
  refine fun s => ⟨fun m hm hinit hsdis hclk => ⟨?reset, ?enumdone, ?isoIn, ?isoOut, ?wake⟩, fun hm => ?tick⟩
  case reset =>
    rintro rfl
    exact step_of_signal (fun c => { c with usbrst := true }) (fun _ => rfl) hm ⟨hinit, hsdis, hclk, trivial⟩
  case enumdone =>
    rintro rfl
    exact step_of_signal (fun c => { c with enumdne := true }) (fun _ => rfl) hm ⟨hinit, hsdis, hclk, trivial⟩
  case isoIn =>
    rintro rfl
    exact step_of_signal (fun c => { c with iisoixfr := true }) (fun _ => rfl) hm ⟨hinit, hsdis, hclk, trivial⟩
  case isoOut =>
    rintro rfl
    exact step_of_signal (fun c => { c with ipxfr := true }) (fun _ => rfl) hm ⟨hinit, hsdis, hclk, trivial⟩
  case wake =>
    rintro rfl
    exact step_of_signal (fun c => { c with wkupint := true }) (fun _ => rfl) hm ⟨hinit, hsdis, hclk, trivial⟩
  case tick => exact ⟨_, step_of_tick hm, tick_afterTurn_now s, (tick_grows _).only.after_turn⟩

/-! ## Counts and status words (30_encoding R85) -/

/-- A count goes down by what it holds. -/
theorem sub_ofNat_toNat {w p : Nat} {x : BitVec w} (hp : p ≤ x.toNat) : (x - BitVec.ofNat w p).toNat = x.toNat - p := by
  have hof : (BitVec.ofNat w p).toNat = p := (BitVec.toNat_ofNat p w).trans (Nat.mod_eq_of_lt (hp.trans_lt x.isLt))
  rw [BitVec.toNat_sub_of_le (by rwa [BitVec.le_def, hof]), hof]

/-- The status word of an entry of `len` bytes for endpoint e, as a number. -/
theorem rxStatusWord_ep_toNat (e : Ep) {len : Nat} (hlen : len < 2 ^ 11) (dpid : BitVec 2) (kind frm : BitVec 4) :
    (rxStatusWord (BitVec.ofNat 4 e.val) (BitVec.ofNat 11 len) dpid kind frm).toNat =
      e.val + len * 2 ^ 4 + dpid.toNat * 2 ^ 15 + kind.toNat * 2 ^ 17 + frm.toNat * 2 ^ 21 := by
  rw [rxStatusWord_toNat, BitVec.toNat_ofNat, BitVec.toNat_ofNat, Nat.mod_eq_of_lt hlen, Nat.mod_eq_of_lt (by omega)]
  omega

/-- A packet's words carry its bytes. -/
theorem packBytes_carries (pad : Word) {data : List Byte} {len : Nat} (hlen : data.length = len) :
    Carries (packBytes pad data) len fun i => data[i]?.getD 0 :=
  carries_packBytes pad hlen fun i hi => by simp [hlen, hi]

/-! ## An OUT packet (45_bus_agent R142) -/

/-- The status word that an OUT packet pushes. -/
def outStatus (e : Ep) (data : List Byte) (dpid : BitVec 2) (frm : BitVec 4) : Word :=
  rxStatusWord (BitVec.ofNat 4 e.val) (BitVec.ofNat 11 data.length) dpid kindOutData frm

/-- What an OUT packet pushes behind its data: OUT_XFER_DONE where it ends the transfer. -/
def outMarker (s : State) (e : Ep) (len : Nat) (frm : BitVec 4) : List Word :=
  if outEnds s e len then [rxStatusWord (BitVec.ofNat 4 e.val) 0 0 kindOutXferDone frm] else []

section Out

variable (e : Ep) (data : List Byte) (dpid : BitVec 2) (frm : BitVec 4) (s : State)

theorem busOut_rxq : (busOut e data dpid frm s).rxq = s.rxq ++ outStatus e data dpid frm ::
    (packBytes (s.draws.pad.get e) data ++ outMarker s e data.length frm) :=
  List.append_assoc _ _ _

theorem busOut_oep : (busOut e data dpid frm s).oep =
    s.oep.set e (outBankAfter (s.oep.get e) data.length (outEnds s e data.length)) :=
  rfl

theorem busOut_only : OnlyChanges [.rxq, .oep] s (busOut e data dpid frm s) :=
  ((setRxq_grows _ s).trans (setOep_grows e _ _)).only

end Out

/-- Settles O44: the preconditions make the packet a step, which pushes its entry and writes the bank. -/
theorem busOutEffect : Obligations.BusOutEffect := by
  unfold Obligations.BusOutEffect
  intro s e data dpid frm b ends hm hinit hsdis hclk husb hepena hnak hstall hpos hlen hroom hroomEnds
  have hready : BusReady s (.out e data dpid frm) := by
    refine ⟨hinit, hsdis, hclk, husb, hepena, hnak, hstall, hpos, hlen, ?_⟩
    split
    · next h => exact hroomEnds h
    · next h => exact hroom h
  have hmps := mpsOut_le s e
  have hends : outEnds (afterTurn s) e data.length = true ↔ ends :=
    outEnds_afterTurn s e data.length ▸ outEnds_iff data.length hpos
  have hbank : (busOut e data dpid frm (afterTurn s)).oep.get e =
      outBankAfter b data.length (outEnds (afterTurn s) e data.length) := by
    rw [busOut_oep, PerEp.get_set_self, afterTurn_oep]
  refine ⟨busOut e data dpid frm (afterTurn s), outStatus e data dpid frm,
    packBytes ((afterTurn s).draws.pad.get e) data, outMarker (afterTurn s) e data.length frm, step_of_busReady hm hready,
    by rw [busOut_rxq, afterTurn_rxq], rxStatusWord_ep_toNat e (by omega) _ _ _, packBytes_carries _ rfl,
    hbank ▸ sub_ofNat_toNat (p := 1) hpos, hbank ▸ sub_ofNat_toNat (Nat.min_le_right _ _),
    fun h => ⟨⟨_, if_pos (hends.2 h), ?marker⟩, ?ended⟩, fun h => ⟨if_neg (h ∘ hends.1), ?goesOn⟩, ?others,
    (busOut_only e data dpid frm _).after_turn⟩
  case marker => simpa [kindOutXferDone] using rxStatusWord_ep_toNat e (len := 0) (by decide) 0 kindOutXferDone frm
  case ended => simp [hbank, hends.2 h, outBankAfter]
  case goesOn => simp [hbank, Bool.eq_false_iff.2 (h ∘ hends.1), outBankAfter]
  case others => simpa [busOut_oep] using s.oep.sameBut_set e _

/-! ## A SETUP packet and setup done (45_bus_agent R143, R144) -/

/-- STUPCNT after a SETUP packet: one less, and 0 at least (45_bus_agent R143). -/
def stupcntDown (x : BitVec 2) : BitVec 2 := if x = 0 then x else x - 1

theorem stupcntDown_toNat (x : BitVec 2) : (stupcntDown x).toNat = x.toNat - 1 := by
  unfold stupcntDown
  split
  · next h => simp [h]
  · next h => exact sub_ofNat_toNat (p := 1) (Nat.pos_of_ne_zero fun h0 => h (BitVec.eq_of_toNat_eq h0))

/-- The state that a SETUP packet leaves, but for STALL and `setup_pending`. -/
def setupPushed (e : Ep) (data : List Byte) (frm : BitVec 4) (s : State) : State :=
  (s.setRxq (s.rxq ++ rxStatusWord (BitVec.ofNat 4 e.val) 8 0 kindSetupData frm ::
    packBytes (s.draws.pad.get e) data)).setOep e { s.oep.get e with stupcnt := stupcntDown (s.oep.get e).stupcnt }

section Setup

variable (e : Ep) (data : List Byte) (frm : BitVec 4) (s : State)

theorem busSetup_eq : busSetup e data frm s =
    { (if e = 0 then clearStall0 (setupPushed e data frm s) else setupPushed e data frm s) with
      setupPending := s.setupPending.set e true } := by
  unfold busSetup
  by_cases he : e = 0
  · simp only [he, if_true]; rfl
  · simp only [he, if_false]; rfl

theorem busSetup_rxq : (busSetup e data frm s).rxq =
    s.rxq ++ rxStatusWord (BitVec.ofNat 4 e.val) 8 0 kindSetupData frm :: packBytes (s.draws.pad.get e) data := by
  rw [busSetup_eq]
  split <;> rfl

theorem busSetup_setupPending : (busSetup e data frm s).setupPending = s.setupPending.set e true := by
  rw [busSetup_eq]

theorem busSetup_only : OnlyChanges [.rxq, .iep, .oep, .setupPending] s (busSetup e data frm s) := fun p hp => by
  rw [busSetup_eq]
  split <;> cases p <;> simp_all [Same, setupPushed, clearStall0]

theorem busSetup_iep (k : Ep) : (busSetup e data frm s).iep.get k =
    { s.iep.get k with stall := if e = 0 ∧ k = 0 then false else (s.iep.get k).stall } := by
  rw [busSetup_eq]
  by_cases he : e = 0
  · by_cases hk : k = 0 <;> simp [he, hk, setupPushed, clearStall0, PerEp.get_set]
  · simp [he, setupPushed]

theorem busSetup_oep (k : Ep) : (busSetup e data frm s).oep.get k = { s.oep.get k with
    stupcnt := if k = e then stupcntDown (s.oep.get k).stupcnt else (s.oep.get k).stupcnt
    stall := if e = 0 ∧ k = 0 then false else (s.oep.get k).stall } := by
  rw [busSetup_eq]
  by_cases he : e = 0
  · by_cases hk : k = 0 <;> simp [he, hk, setupPushed, clearStall0, PerEp.get_set]
  · by_cases hk : k = e <;> simp [he, hk, setupPushed, PerEp.get_set]

end Setup

theorem busSetupdone_only (e : Ep) (s : State) : OnlyChanges [.rxq, .oep, .setupPending] s (busSetupdone e s) :=
  fun p hp => by cases p <;> simp_all [Same, busSetupdone]

/-- Settles O45: a SETUP packet pushes its entry and clears STALL on endpoint 0, and setup done disables the endpoint. -/
theorem busSetupStage : Obligations.BusSetupStage := by
  unfold Obligations.BusSetupStage
  refine fun s e hinit hsdis hclk => ⟨?setup, ?setupdone⟩
  case setup =>
    intro data frm hm husb hctl hlen hroom
    refine ⟨busSetup e data frm (afterTurn s), rxStatusWord (BitVec.ofNat 4 e.val) 8 0 kindSetupData frm,
      packBytes ((afterTurn s).draws.pad.get e) data, step_of_busReady hm ⟨hinit, hsdis, hclk, husb, hctl, hlen, hroom⟩,
      by rw [busSetup_rxq, afterTurn_rxq], ?word, packBytes_carries _ hlen,
      by rw [busSetup_setupPending, afterTurn_setupPending], ?stupcnt, fun k => ?oep, fun k => ?iep,
      (busSetup_only e data frm _).after_turn⟩
    case word => simpa [kindSetupData] using rxStatusWord_ep_toNat e (len := 8) (by decide) 0 kindSetupData frm
    case stupcnt => simp [busSetup_oep, stupcntDown_toNat]
    case oep => by_cases hk : k = e <;> simp [busSetup_oep, hk]
    case iep => rw [busSetup_iep, afterTurn_iep]
  case setupdone =>
    intro hm hpending hroom
    refine ⟨busSetupdone e (afterTurn s), rxStatusWord (BitVec.ofNat 4 e.val) 0 0 kindSetupDone 0,
      step_of_busReady hm ⟨hinit, hsdis, hclk, hpending, hroom⟩, by simp [busSetupdone], ?done,
      by simp [busSetupdone], by simp [busSetupdone], ?others,
      (busSetupdone_only e _).after_turn⟩
    case done => simpa [kindSetupDone] using rxStatusWord_ep_toNat e (len := 0) (by decide) 0 kindSetupDone 0
    case others => simpa [busSetupdone] using s.oep.sameBut_set e _

/-! ## An IN packet (45_bus_agent R145) -/

/-- The first bytes of as many words as hold them are what the words carry. -/
theorem carries_unpackWords {ws : List Word} {n : Nat} (h : ws.length = wordsFor n) :
    Carries ws n fun i => ((unpackWords ws).take n)[i]?.getD 0 := by
  refine ⟨h, fun i hi => ?_⟩
  have hword : ws[i / 4]? = some (ws[i / 4]'(h ▸ div_four_lt_wordsFor hi)) := List.getElem?_eq_getElem _
  exact ⟨_, hword, by simp [List.getElem?_take_of_lt hi, unpackWords_getElem?, hword]⟩

/-- The bytes of the packet that an IN endpoint's FIFO holds whole. -/
def inPacket (s : State) (e : Ep) : List Byte :=
  (unpackWords ((s.txq.get e).take (wordsFor (inPacketBytes s e)))).take (inPacketBytes s e)

theorem inPacket_length {s : State} {e : Ep} (h : wordsFor (inPacketBytes s e) ≤ (s.txq.get e).length) :
    (inPacket s e).length = inPacketBytes s e := by
  have hle := (wordsFor_le_iff (inPacketBytes s e) _).1 (Nat.le_refl _)
  simp only [inPacket, List.length_take, unpackWords_length]
  omega

theorem inPacket_afterTurn (s : State) (e : Ep) : inPacket (afterTurn s) e = inPacket s e := by
  rw [afterTurn_eq]
  rfl

theorem busTake_only (e : Ep) (s : State) : OnlyChanges [.txq, .iep, .busTx] s (busTake e s) :=
  fun p hp => by cases p <;> simp_all [Same, busTake]

theorem busTake_busTx (e : Ep) (s : State) : (busTake e s).busTx = s.busTx ++ [(e, inPacket s e)] := rfl

theorem busTake_txq (e : Ep) (s : State) :
    (busTake e s).txq = s.txq.set e ((s.txq.get e).drop (wordsFor (inPacketBytes s e))) := rfl

theorem busTake_iep (e : Ep) (s : State) :
    (busTake e s).iep = s.iep.set e (inBankAfter (s.iep.get e) (inPacketBytes s e)) := rfl

/-- Settles O46: the preconditions make the packet a step, which takes its words and writes the bank. -/
theorem busInEffect : Obligations.BusInEffect := by
  unfold Obligations.BusInEffect
  intro s e b p hm hinit hsdis hclk husb hepena hnak hstall hginnak hpos hwhole
  have hp : inPacketBytes (afterTurn s) e = p := inPacketBytes_afterTurn s e
  have hbank : (busTake e (afterTurn s)).iep.get e = inBankAfter b p := by
    rw [busTake_iep, PerEp.get_set_self, afterTurn_iep, hp]
  have htxq : (busTake e (afterTurn s)).txq = s.txq.set e ((s.txq.get e).drop (wordsFor p)) := by
    rw [busTake_txq, afterTurn_txq, hp]
  have hlast : b.pktcnt = 1#10 ↔ b.pktcnt.toNat = 1 := by rw [← BitVec.toNat_inj]; rfl
  refine ⟨busTake e (afterTurn s), inPacket s e,
    step_of_busReady hm ⟨hinit, hsdis, hclk, husb, hepena, hnak, hstall, hginnak, hpos, hwhole⟩,
    by rw [busTake_busTx, afterTurn_busTx, inPacket_afterTurn], inPacket_length hwhole, carries_unpackWords ?words,
    by rw [htxq, PerEp.get_set_self], htxq ▸ s.txq.sameBut_set e _, hbank ▸ sub_ofNat_toNat (Nat.min_le_right _ _),
    hbank ▸ sub_ofNat_toNat (p := 1) hpos, fun h => ?last, fun h => ?notLast, ?others,
    (busTake_only e _).after_turn⟩
  case words => rw [List.length_take, Nat.min_eq_left hwhole]
  case last => simp [hbank, inBankAfter, hlast.2 h]
  case notLast => simp [hbank, inBankAfter, mt hlast.1 h]
  case others => simpa [busTake_iep] using s.iep.sameBut_set e _

/-! ## An OUT packet's way to the buffer (45_bus_agent R142, 42_bus_event_handler R108) -/

theorem outMarker_length_le (s : State) (e : Ep) (len : Nat) (frm : BitVec 4) : (outMarker s e len frm).length ≤ 1 := by
  unfold outMarker
  split <;> simp

/-- The entry of an OUT packet is read back as it was sent (30_encoding R85). -/
theorem decodeRx_outStatus (e : Ep) (data : List Byte) (dpid : BitVec 2) (frm : BitVec 4) :
    decodeRx (outStatus e data dpid frm) =
      .ok (.rxOutData (BitVec.ofNat 4 e.val) (BitVec.ofNat 11 data.length) dpid frm) := by
  simp [decodeRx, outStatus, rxBcnt_rxStatusWord, kindOutData]

/-- Settles O47: the packet's entry is the head of the receive FIFO, so the service is its row, which keeps the bytes that
fit and leaves the end marker. -/
theorem outPacketReachesTheBuffer : Obligations.OutPacketReachesTheBuffer := by
  unfold Obligations.OutPacketReachesTheBuffer
  intro s e data dpid frm d n hmem hempty hon hd hroom hbuf
  obtain ⟨-, -, -, -, -, -, -, -, hlen, -⟩ := (busEnabled_iff s _).1 hon
  have hmps := mpsOut_le s e
  have hbcnt : (BitVec.ofNat 11 data.length).toNat = data.length := by
    rw [BitVec.toNat_ofNat, Nat.mod_eq_of_lt (by omega)]
  have hep : (BitVec.ofNat 4 e.val).toNat = e.val := by rw [BitVec.toNat_ofNat, Nat.mod_eq_of_lt (by omega)]
  obtain ⟨hwords, hcarried⟩ := packBytes_carries (s.draws.pad.get e) (data := data) rfl
  let q := packBytes (s.draws.pad.get e) data ++ outMarker s e data.length frm
  have hrxq : (busOut e data dpid frm s).rxq = outStatus e data dpid frm :: q := by
    rw [busOut_rxq, hempty, List.nil_append]
  have hrow := (receiveServiceRunsHeadEntry.2.1 _ _ _ hrxq).1 _ (decodeRx_outStatus e data dpid frm)
  obtain ⟨t, ht, hleft, hbytes, hout, hdesc, hoff, -, honly⟩ :=
    (dataEntryKeptOrDumped (BitVec.ofNat 4 e.val) (BitVec.ofNat 11 data.length) dpid frm
      { busOut e data dpid frm s with rxq := q } hmem (by simp [q, hbcnt]) _ (List.mem_cons_self ..)).1
      e hep hd hroom hbuf
  rw [hbcnt] at hleft hbytes hout hoff
  refine ⟨t, hrow.trans ht, fun i hi => ?byte, hout, hdesc ▸ hd, hoff, ?marker, ?fault⟩
  case byte =>
    obtain ⟨w, hw, hread⟩ := hbytes i hi
    obtain ⟨w', hw', hbyte⟩ := hcarried i (hi.trans_le (Nat.min_le_left _ _))
    have hq : q[i / 4]? = some w' := (List.getElem?_append_left (List.getElem?_eq_some_iff.1 hw').1).trans hw'
    obtain rfl : w' = w := Option.some.inj (hq.symm.trans hw)
    exact hread.trans hbyte
  case marker =>
    have hmarker : t.rxq = outMarker s e data.length frm := hleft.trans (hwords ▸ List.drop_left)
    exact hmarker ▸ outMarker_length_le s e data.length frm
  case fault => exact (busOut_only e data dpid frm s .fault (by decide)).trans (honly .fault (by decide))

end Sys2Proof.Machine

/-! SUPPORT. Proof of the statement about fair runs (45_bus_agent R147, 43_transfer_api R123): the elapsed time of a wait
follows the ticks of the run, and a poll past the budget ends the wait. -/

namespace Sys2Proof.Machine

/-! ## The agents of moves (00_scope R9) -/

theorem agent_eq_clock_iff (m : Move) : m.agent = some .clock ↔ m = .tick := by
  cases m <;> simp [Move.agent]

theorem agent_eq_dispatcher_iff (m : Move) : m.agent = some .dispatcher ↔ m = .dispatch := by
  cases m <;> simp [Move.agent]

/-! ## Ticks of a run (45_bus_agent R146, R147) -/

section Ticks

variable {us : Nat → Turn} {n : Nat}

theorem ticks_mono {m p : Nat} (hn : n ≤ m) (hm : m ≤ p) : ticks us n m ≤ ticks us n p := by
  induction p, hm using Nat.le_induction with
  | base => exact Nat.le_refl _
  | succ p hp ih => rw [ticks_succ us (hn.trans hp)]; omega

/-- The ticks are counted one by one, so a run that reaches a count has passed every smaller one. -/
theorem exists_ticks_eq_of_le {p c : Nat} (hp : n ≤ p) (hc : c ≤ ticks us n p) : ∃ m, n ≤ m ∧ ticks us n m = c := by
  induction p, hp using Nat.le_induction with
  | base => exact ⟨n, Nat.le_refl n, by rw [ticks_self] at hc ⊢; omega⟩
  | succ p hp ih =>
    by_cases h : c ≤ ticks us n p
    · exact ih h
    · have hone : ticks us n (p + 1) ≤ ticks us n p + 1 := by rw [ticks_succ us hp]; split <;> omega
      exact ⟨p + 1, hp.trans (Nat.le_succ p), by omega⟩

/-- Where the clock ticks again and again, any number of ticks is reached exactly. -/
theorem exists_ticks_eq (hclock : ∀ m, ∃ p, m ≤ p ∧ (us p).move = .tick) (c : Nat) :
    ∃ m, n ≤ m ∧ ticks us n m = c := by
  induction c with
  | zero => exact ⟨n, Nat.le_refl n, ticks_self us n⟩
  | succ c ih =>
    obtain ⟨m, hnm, hc⟩ := ih
    obtain ⟨p, hmp, htick⟩ := hclock m
    have hle := ticks_mono (us := us) hnm hmp
    refine exists_ticks_eq_of_le (p := p + 1) (by omega) ?_
    rw [ticks_succ us (hnm.trans hmp), if_pos htick]
    omega

end Ticks

/-! ## Along a run (00_scope R10, 45_bus_agent R147) -/

section Run

variable {r : Nat → State} {us : Nat → Turn} (hrun : IsRun r us)

include hrun

theorem IsRun.inited {n m : Nat} (hn : (r n).inited = true) (hm : n ≤ m) : (r m).inited = true := by
  induction m, hm using Nat.le_induction with
  | base => exact hn
  | succ m _ ih => exact (step_sticky (hrun m)).inited ih

theorem IsRun.cfg {n m : Nat} (hm : n ≤ m) : (r m).cfg = (r n).cfg := by
  induction m, hm using Nat.le_induction with
  | base => rfl
  | succ m _ ih => exact (step_sticky (hrun m)).cfg.trans ih

theorem IsRun.elapsed_succ (m t0 : Nat) : elapsed (r (m + 1)).cfg (r (m + 1)).now t0 =
    (elapsed (r m).cfg (r m).now t0 + if (us m).move = .tick then 1 else 0) % clockPeriod (r m).cfg := by
  rw [hrun.cfg (Nat.le_succ m)]
  by_cases htick : (us m).move = .tick
  · have hstep : step { r m with sched := [us m] } = .next _ := step_of_tick htick
    have hnow : (r (m + 1)).now = ((r m).now + 1) % clockPeriod (r m).cfg := by
      rw [← Host.Outcome.next.inj (hstep.symm.trans (hrun m)), tick_afterTurn_now]
    rw [hnow, elapsed_tick, if_pos htick]
  · have hnow : (r (m + 1)).now = (r m).now := step_now (s := { r m with sched := [us m] }) (hrun m) htick
    rw [hnow, if_neg htick, Nat.add_zero, Nat.mod_eq_of_lt (elapsed_lt _ _ _)]

/-- The elapsed time of a wait grows with the ticks, round the clock. -/
theorem IsRun.elapsed_eq {n m : Nat} (hm : n ≤ m) (t0 : Nat) : elapsed (r m).cfg (r m).now t0 =
    (elapsed (r n).cfg (r n).now t0 + ticks us n m) % clockPeriod (r n).cfg := by
  induction m, hm using Nat.le_induction with
  | base => rw [ticks_self, Nat.add_zero, Nat.mod_eq_of_lt (elapsed_lt _ _ _)]
  | succ m hm ih => rw [hrun.elapsed_succ, ih, hrun.cfg hm, ticks_succ us hm, Nat.mod_add_mod, Nat.add_assoc]

/-- A task whose turns come before the clock has come round past a budget has one past the budget: the clock first comes to
the millisecond after it, and then the task's turn before it has come round. -/
theorem IsRun.exists_late_turn {n j tmo : Nat} (t0 : Nat) (hclock : ∀ m, ∃ p, m ≤ p ∧ (us p).move = .tick)
    (hturns : TurnsWithin us j (clockPeriod (r n).cfg - (tmo + 1))) :
    ∃ p, n ≤ p ∧ (us p).move = .task j ∧ tmo < elapsed (r p).cfg (r p).now t0 := by
  have hstart := elapsed_lt (r n).cfg (r n).now t0
  obtain ⟨m, hnm, hticks⟩ := exists_ticks_eq (n := n) hclock
    (clockPeriod (r n).cfg + (tmo + 1) - elapsed (r n).cfg (r n).now t0)
  obtain ⟨p, hmp, hturn, hlt⟩ := hturns m
  refine ⟨p, hnm.trans hmp, hturn, ?_⟩
  have hpast : elapsed (r m).cfg (r m).now t0 = tmo + 1 := by
    rw [hrun.elapsed_eq hnm, hticks, Nat.add_sub_cancel' (by omega), Nat.add_mod_left, Nat.mod_eq_of_lt (by omega)]
  rw [hrun.elapsed_eq hmp, hpast, hrun.cfg hnm, Nat.mod_eq_of_lt (by omega)]
  omega

end Run

/-! ## The end of a wait (43_transfer_api R123, 45_bus_agent R147) -/

/-- What the poll that ends a wait with `v` sees: a terminal status, or an expired budget (43_transfer_api R123). -/
def PollEndsWith (dir : Dir) (e : Ep) (t0 : Nat) (tmo : Word) (s : State) (v : Word) : Prop :=
  (descriptor s dir e).status = .complete v ∨ ((descriptor s dir e).status = .failed .reset ∧ v = -3) ∨
    (((descriptor s dir e).status = .armed ∨ (descriptor s dir e).status = .idle) ∧
      tmo.toNat < elapsed s.cfg s.now t0 ∧ v = -2)

/-- Past its budget a waiting task's turn ends the wait, whatever the descriptor's status is. -/
theorem step_of_late_poll {s t : State} {j : Nat} {k : Task} {dir : Dir} {e : Ep} {t0 : Nat} {tmo : Word}
    (h : step s = .next t) (hm : (nextTurn s).move = .task j) (hk : s.tasks[j]? = some k)
    (hp : k.phase = .waiting dir e t0 tmo) (hlate : tmo.toNat < elapsed s.cfg s.now t0) :
    ∃ v, t.tasks[j]? = some (k.next (some v)) ∧ PollEndsWith dir e t0 tmo s v := by
  have hturn := taskState_grows j s
  have hends : ∀ {u v}, Grows [.iep, .oep, .txq] (taskState j s) u →
      (endWait dir e v u).tasks[j]? = some (k.next (some v)) := fun hu =>
    (endWait_completed_of_only dir e _ (hturn.trans hu).only (by decide) (hu.only .cur (by decide))).1 k hk
  rw [step_of_waiting hm hk hp] at h
  cases h
  obtain ⟨n, hn, heq⟩ | ⟨hf, heq⟩ | ⟨hd, -, heq⟩ | ⟨-, hin, -⟩ := poll_taskState_cases dir e t0 tmo j s
  · exact ⟨n, heq ▸ hends (.refl _ _), .inl hn⟩
  · exact ⟨-3, heq ▸ hends (.refl _ _), .inr (.inl ⟨hf, rfl⟩)⟩
  · exact ⟨-2, heq ▸ hends (timeoutRecover_grows dir e _), .inr (.inr ⟨hd, hlate, rfl⟩)⟩
  · exact absurd hlate hin

/-- Task j's wait ends in the turn `m` of a run, by its own poll. -/
def WaitEndsAt (r : Nat → State) (us : Nat → Turn) (j : Nat) (k : Task) (dir : Dir) (e : Ep) (t0 : Nat) (tmo : Word)
    (m : Nat) : Prop :=
  (us m).move = .task j ∧ (r m).tasks[j]? = some k ∧
    ∃ v, (r (m + 1)).tasks[j]? = some (k.next (some v)) ∧ PollEndsWith dir e t0 tmo (r m) v

/-- A task that waits still waits at any later point of a run, or its wait has ended before. -/
theorem IsRun.waits_or_ended {r : Nat → State} {us : Nat → Turn} (hrun : IsRun r us) {n m j : Nat} {k : Task} {dir : Dir}
    {e : Ep} {t0 : Nat} {tmo : Word} (hk : (r n).tasks[j]? = some k) (hp : k.phase = .waiting dir e t0 tmo) (hm : n ≤ m) :
    (r m).tasks[j]? = some k ∨ ∃ p, n ≤ p ∧ WaitEndsAt r us j k dir e t0 tmo p := by
  induction m, hm using Nat.le_induction with
  | base => exact .inl hk
  | succ m hm ih =>
    obtain hkm | hended := ih
    · obtain ⟨hother, hpoll⟩ := waitEndsOnlyByPoll { r m with sched := [us m] } _ j k hkm (hrun m)
      by_cases hturn : (us m).move = .task j
      · exact (hpoll dir e t0 tmo hp).imp_right fun hends => ⟨m, hm, hturn, hkm, hends⟩
      · exact .inl (hother hturn)
    · exact .inr hended

/-- Settles O26: the dispatcher's step stays enabled, so fairness gives it a turn; a wait that has not ended by the task's
turn past its budget ends in it. -/
theorem fairRunsEndEveryWait : Obligations.FairRunsEndEveryWait := by
  unfold Obligations.FairRunsEndEveryWait
  intro r us hrun ⟨hdispatcher, hclock, _⟩
  refine ⟨fun n hn m hm => ?dispatcher, fun n j k dir e t0 tmo hk hp hturns => ?wait⟩
  case dispatcher =>
    have hstep : ∀ p, m ≤ p → HasStep (r p) .dispatcher := fun p hp => hrun.inited hn (hm.trans hp)
    obtain ⟨p, hmp, hagent⟩ := hdispatcher m hstep
    exact ⟨hstep m (Nat.le_refl m), p, hmp, (agent_eq_dispatcher_iff _).1 hagent⟩
  case wait =>
    have htick : ∀ m, ∃ p, m ≤ p ∧ (us p).move = .tick := fun m =>
      (hclock m fun _ _ => trivial).imp fun _ => And.imp_right (agent_eq_clock_iff _).1
    obtain ⟨p, hnp, hturn, hlate⟩ := hrun.exists_late_turn t0 htick hturns
    have hends : ∃ m, n ≤ m ∧ WaitEndsAt r us j k dir e t0 tmo m := by
      obtain hkp | hended := hrun.waits_or_ended hk hp hnp
      · exact ⟨p, hnp, hturn, hkp, step_of_late_poll (s := { r p with sched := [us p] }) (hrun p) hturn hkp hp hlate⟩
      · exact hended
    obtain ⟨m, hnm, hmove, hkm, v, hend, hseen⟩ := hends
    exact ⟨m, v, hnm, hmove, hkm, hend, hseen⟩

end Sys2Proof.Machine

/-! SUPPORT. Proofs of the statements about power-on and the block before `init` (70_reset_and_hazards R165): the values at
power-on, the invariants there, and that no step before `init` reads a field that the spec leaves unspecified. -/

namespace Sys2Proof.Machine

/-! ## The fields unspecified at power-on (70_reset_and_hazards R165, log 4) -/

/-- The fields that the spec leaves unspecified until `init` writes them. -/
structure Unspecified where
  core : CoreRegs
  iep : PerEp InBank
  oep : PerEp OutBank
  rxq : List Word
  txq : PerEp (List Word)
  din : PerEp Descriptor
  dout : PerEp Descriptor
  busActive : Bool

/-- The state with other values in the unspecified fields. -/
def State.withUnspecified (s : State) (x : Unspecified) : State := { s with
  core := x.core, iep := x.iep, oep := x.oep, rxq := x.rxq, txq := x.txq, din := x.din, dout := x.dout,
  busActive := x.busActive }

/-- States before `init` that agree on the specified fields differ by a choice of the unspecified ones. -/
theorem preInitEq_iff (s u : State) : PreInitEq s u ↔ s.inited = false ∧ ∃ x, u = s.withUnspecified x := by
  constructor
  · intro ⟨hs, hu, hcfg, hevents, hpending, htx, htasks, hnow, hmem, hfault, hrefused, hby, hcur, hdraws, hsched,
      hturns⟩
    refine ⟨hs, ⟨u.core, u.iep, u.oep, u.rxq, u.txq, u.din, u.dout, u.busActive⟩, ?_⟩
    cases u
    simp_all [State.withUnspecified]
  · rintro ⟨hs, x, rfl⟩
    simp [PreInitEq, State.withUnspecified, hs]

/-! ## Operations that the unspecified fields do not matter to -/

/-- An operation that the unspecified fields pass through, neither read nor written, and that does not bring the block
up. -/
def KeepsUnspecified (f : State → State) : Prop :=
  ∀ s, (f s).inited = s.inited ∧ ∀ x, f (s.withUnspecified x) = (f s).withUnspecified x

/-- What does not read the unspecified fields is the same. -/
theorem PreInitEq.congr {α : Type} {g : State → α} {s u : State} (hg : ∀ s x, g (s.withUnspecified x) = g s)
    (h : PreInitEq s u) : g u = g s := by
  obtain ⟨-, x, rfl⟩ := (preInitEq_iff s u).1 h
  exact hg s x

theorem PreInitEq.map {f : State → State} {s u : State} (hf : KeepsUnspecified f) (h : PreInitEq s u) :
    PreInitEq (f s) (f u) := by
  obtain ⟨hs, x, rfl⟩ := (preInitEq_iff s u).1 h
  exact (preInitEq_iff _ _).2 ⟨(hf s).1.trans hs, x, (hf s).2 x⟩

theorem keepsUnspecified_id : KeepsUnspecified id := fun _ => ⟨rfl, fun _ => rfl⟩

theorem keepsUnspecified_refuse (r : RefuseReason) : KeepsUnspecified (refuse r) := fun _ => ⟨rfl, fun _ => rfl⟩

theorem keepsUnspecified_raise (f : FaultReason) : KeepsUnspecified (raise f) := fun _ => ⟨rfl, fun _ => rfl⟩

theorem keepsUnspecified_tick : KeepsUnspecified tick := fun _ => ⟨rfl, fun _ => rfl⟩

theorem keepsUnspecified_cur (j : Nat) : KeepsUnspecified fun s => { s with cur := j } := fun _ => ⟨rfl, fun _ => rfl⟩

theorem keepsUnspecified_rejectWord (r : DecodeRefusal) : KeepsUnspecified (rejectWord r) := by
  unfold rejectWord
  cases portRefusal r with
  | none => exact keepsUnspecified_id
  | some reason => exact keepsUnspecified_refuse reason

theorem keepsUnspecified_onCur (g : Task → Task) : KeepsUnspecified (onCur g) := fun s =>
  ⟨onCur_inited g s, fun x => by
    have htasks : (s.withUnspecified x).tasks[(s.withUnspecified x).cur]? = s.tasks[s.cur]? := rfl
    unfold onCur
    rw [htasks]
    cases s.tasks[s.cur]? <;> rfl⟩

theorem keepsUnspecified_observe (j : Nat) : KeepsUnspecified (observe j) := fun s => by
  have htasks : ∀ x, (s.withUnspecified x).tasks[j]? = s.tasks[j]? := fun _ => rfl
  unfold observe
  simp only [htasks]
  cases s.tasks[j]? with
  | none => exact keepsUnspecified_id s
  | some k =>
    dsimp only
    cases k.res with
    | none => exact keepsUnspecified_raise _ s
    | some v => exact keepsUnspecified_id s

theorem keepsUnspecified_afterTurn : KeepsUnspecified afterTurn := fun s =>
  ⟨afterTurn_only s .inited (by decide), fun x => by rw [afterTurn_eq, afterTurn_eq]; rfl⟩

/-! ## Steps before `init` -/

/-- Two outcomes that the unspecified fields did not decide: they agree on the specified fields, or are one state. -/
def LikeOutcomes (o o' : Host.Outcome State Fault Refusal) : Prop :=
  ∃ s' u', o = .next s' ∧ o' = .next u' ∧ (PreInitEq s' u' ∨ s' = u')

theorem PreInitEq.likeOutcomes {s u : State} (h : PreInitEq s u) : LikeOutcomes (.next s) (.next u) :=
  ⟨s, u, rfl, rfl, .inl h⟩

/-- `init` writes every unspecified field (10_state R50). -/
theorem PreInitEq.bringUp_eq {s u : State} (h : PreInitEq s u) : bringUp u = bringUp s := h.congr fun _ _ => rfl

/-- INIT reads a draw, and then gives up or writes every unspecified field (44_bus_control R133). -/
theorem PreInitEq.initBlock_like {s u : State} (h : PreInitEq s u) :
    LikeOutcomes (.next (initBlock s)) (.next (initBlock u)) := by
  have ⟨hs, hu, _⟩ := h
  have hdraws : u.draws = s.draws := h.congr (g := State.draws) fun _ _ => rfl
  unfold initBlock
  rw [hs, hu, hdraws]
  cases s.draws.initSpinOk with
  | false => exact (h.map (keepsUnspecified_onCur _)).likeOutcomes
  | true => exact ⟨_, _, rfl, rfl, .inr (congrArg advance h.bringUp_eq.symm)⟩

/-- Every command but INIT is refused before `init` (10_state R19), said as an equation, since a frame compares memory byte
by byte only. -/
theorem exec_of_not_inited {i : Instr} {s : State} (hi : i.space = .port) (hne : i ≠ .init) (hs : s.inited = false) :
    exec i s = .next (refuse .notInited s) := by
  cases i with
  | init => exact absurd rfl hne
  | connect | disconnect | setRxFifoSize | setTxFifoSize | configureInEp | configureOutEp =>
    exact congrArg _ (if_pos (by simp [hs]))
  | inTransfer | outTransfer | setupTransfer => exact armStep_of_not_inited hs ..
  | setDeviceAddress | stallInEp | stallOutEp | disableInEp | disableOutEp =>
    exact congrArg _ (directOp_of_not_inited hs)
  | _ => cases hi

theorem PreInitEq.exec_like {i : Instr} {s u : State} (hi : i.space = .port) (h : PreInitEq s u) :
    LikeOutcomes (exec i s) (exec i u) := by
  have ⟨hs, hu, _⟩ := h
  by_cases hinit : i = .init
  · subst hinit
    exact h.initBlock_like
  · rw [exec_of_not_inited hi hinit hs, exec_of_not_inited hi hinit hu]
    exact (h.map (keepsUnspecified_refuse _)).likeOutcomes

theorem PreInitEq.runCommand_like {s u : State} (k : Task) (h : PreInitEq s u) :
    LikeOutcomes (runCommand k s) (runCommand k u) := by
  unfold runCommand
  cases hi : decodeCommand (commandWords k) with
  | ok i => exact h.exec_like (decodeCommand_port hi)
  | error r => exact (h.map (keepsUnspecified_rejectWord r)).likeOutcomes

theorem PreInitEq.taskTurn_like {s u : State} {k : Task} (hk : k.isWaiting = false) (h : PreInitEq s u) :
    LikeOutcomes (taskTurn k s) (taskTurn k u) := by
  unfold taskTurn
  cases hp : k.phase with
  | ready => exact h.runCommand_like k
  | waiting => simp [Task.isWaiting, hp] at hk
  | done => exact h.likeOutcomes

/-- Before `init` the bus agent has no step (45_bus_agent R136). -/
theorem busTurn_of_not_inited {m : BusMove} {s : State} (hs : s.inited = false) : busTurn m s = s :=
  if_neg fun hb => by simp [inited_of_busEnabled hb] at hs

theorem PreInitEq.runMove_like {s u : State} (m : Move) (hs : QuietBeforeInit s) (h : PreInitEq s u) :
    LikeOutcomes (runMove m s) (runMove m u) := by
  have ⟨hsi, hui, _⟩ := h
  have htasks : ∀ j : Nat, u.tasks[j]? = s.tasks[j]? := fun j => h.congr (g := fun v => v.tasks[j]?) fun _ _ => rfl
  cases m with
  | task j =>
    simp only [runMove, htasks]
    cases hk : s.tasks[j]? with
    | none => exact h.likeOutcomes
    | some k => exact (h.map (keepsUnspecified_cur j)).taskTurn_like (hs hsi k (List.mem_of_getElem? hk))
  | dispatch => simpa [runMove, dispatchTurn, hsi, hui] using h.likeOutcomes
  | bus m => simpa [runMove, busTurn_of_not_inited, hsi, hui] using h.likeOutcomes
  | tick => exact (h.map keepsUnspecified_tick).likeOutcomes
  | observe j => exact (h.map (keepsUnspecified_observe j)).likeOutcomes

/-- Settles O59: the turn and its move are chosen by specified fields alone, no move before `init` reads another field, and
a successful INIT writes them all. -/
theorem unspecifiedFieldsNeverRead : Obligations.UnspecifiedFieldsNeverRead := by
  unfold Obligations.UnspecifiedFieldsNeverRead
  intro s u h hs
  have hturn : nextTurn u = nextTurn s := h.congr fun _ _ => rfl
  have hquiet : QuietBeforeInit (afterTurn s) := by
    rw [afterTurn_eq]
    exact hs
  unfold step
  rw [hturn]
  exact (h.map keepsUnspecified_afterTurn).runMove_like _ hquiet

/-! ## Power-on (70_reset_and_hazards R165) -/

section PowerOn

variable {cfg : Config} {progs : List (List Word)} {now0 : Nat} {mem : Memory}

/-- At power-on each task stands at the start of its command list (10_state R46). -/
theorem powerOn_task {j : Nat} {k : Task} (h : (State.powerOn cfg progs now0 mem).tasks[j]? = some k) :
    ∃ prog, progs[j]? = some prog ∧ k = Task.start prog := by
  obtain ⟨prog, hprog, hk⟩ := Option.map_eq_some_iff.1 (List.getElem?_map.symm.trans h)
  exact ⟨prog, hprog, hk.symm⟩

theorem powerOn_phase {k : Task} (h : k ∈ (State.powerOn cfg progs now0 mem).tasks) : k.phase = .ready := by
  obtain ⟨prog, -, rfl⟩ := List.mem_map.1 h
  rfl

theorem powerOn_allocFits : AllocFits (State.powerOn cfg progs now0 mem) := by
  simp [AllocFits, AllocMeets, State.powerOn, CoreRegs.zero]

theorem powerOn_fifosFit : FifosFit (State.powerOn cfg progs now0 mem) := by
  simp [FifosFit, State.powerOn]

theorem powerOn_rxOk : RxOk (State.powerOn cfg progs now0 mem) := ⟨.nil, by simp [State.powerOn]⟩

/-- At power-on every descriptor is Idle, in the model (log 4). -/
theorem powerOn_descriptors (e : Ep) : ((State.powerOn cfg progs now0 mem).din.get e).status = .idle ∧
    ((State.powerOn cfg progs now0 mem).dout.get e).status = .idle := by
  simp [State.powerOn, Descriptor.empty]

theorem powerOn_descsOk : DescsOk (State.powerOn cfg progs now0 mem) := fun e => by
  constructor <;> exact .of_inactive (by simp [powerOn_descriptors]) (by simp [powerOn_descriptors])

theorem powerOn_buffersApart : BuffersApart (State.powerOn cfg progs now0 mem) := by
  simp [BuffersApart, powerOn_descriptors]

theorem powerOn_mapperOk : MapperOk (State.powerOn cfg progs now0 mem) := by
  simp [MapperOk, SizeOk, State.powerOn, CoreRegs.zero, InBank.zero, OutBank.zero]

theorem powerOn_baselineOk : BaselineOk (State.powerOn cfg progs now0 mem) := by
  simp [BaselineOk, State.powerOn]

theorem powerOn_ep0FieldsOk : Ep0FieldsOk (State.powerOn cfg progs now0 mem) := by
  simp [Ep0FieldsOk, State.powerOn, InBank.zero, OutBank.zero]

theorem powerOn_quiet : QuietBeforeInit (State.powerOn cfg progs now0 mem) := fun _ k hk => by
  simp [Task.isWaiting, powerOn_phase hk]

theorem powerOn_doneAtEnd : DoneAtEnd (State.powerOn cfg progs now0 mem) := fun k hk hdone => by
  simp [powerOn_phase hk] at hdone

theorem powerOn_clockOk : ClockOk (State.powerOn cfg progs now0 mem) := by
  refine ⟨Nat.mod_lt _ (Nat.two_pow_pos _), fun k hk dir e t0 tmo hwait => ?_⟩
  simp [powerOn_phase hk] at hwait

/-- A launch with a canonical memory meets every invariant. -/
theorem powerOn_inv (hmem : mem.wf (memBytes cfg) = true) : Inv (State.powerOn cfg progs now0 mem) :=
  ⟨hmem, powerOn_allocFits, powerOn_fifosFit, powerOn_rxOk, powerOn_descsOk, powerOn_buffersApart,
    powerOn_mapperOk, powerOn_baselineOk, powerOn_ep0FieldsOk, powerOn_quiet, powerOn_doneAtEnd, powerOn_clockOk⟩

theorem powerOn_waitedNotIdle (hprogs : progs.length ≤ 1) : WaitedNotIdle (State.powerOn cfg progs now0 mem) := by
  refine ⟨by simpa [State.powerOn] using hprogs, fun k hk dir e t0 tmo hwait => ?_⟩
  simp [powerOn_phase hk] at hwait

end PowerOn

/-- Settles O49: reset is a launch with no byte listed and one task. -/
theorem resetMeetsTheInvariants : Obligations.ResetMeetsTheInvariants := by
  unfold Obligations.ResetMeetsTheInvariants
  exact ⟨powerOn_inv rfl, powerOn_waitedNotIdle (Nat.le_refl 1)⟩

/-- Settles O50: the fields are what the launch gives, and a task is the start of its command list. -/
theorem powerOnValues : Obligations.PowerOnValues := by
  unfold Obligations.PowerOnValues
  intro cfg progs now0 mem
  refine ⟨rfl, rfl, rfl, PerEp.get_all false, List.length_map _, fun j k hk => ?task, rfl, rfl, rfl, fun _ => rfl⟩
  case task =>
    obtain ⟨prog, hprog, rfl⟩ := powerOn_task hk
    exact ⟨hprog, rfl, rfl, rfl⟩

end Sys2Proof.Machine

/-! SUPPORT. Proof of the statement about sample words (30_encoding R75, R83 to R85, R90): each sample is the encoding of
its instruction, and the decoders invert the encoder. -/

namespace Sys2Proof.Machine

/-- Words that are the encoding of a well-formed instruction decode to it in its space. -/
theorem decodeIn_of_encode_eq {sp : Space} {ws : List Word} {i : Instr} (hsp : i.space = sp)
    (hwf : i.wellFormed = true) (henc : encode i = ws) : decodeIn sp ws = .ok i := by
  subst hsp henc
  simpa only [List.append_nil] using decodeIn_encode hwf []

/-- Settles O2: the encoder writes each sample from its instruction, so the decoder of its space reads that instruction
back; a SEND_ZLP line is the encoding of the command it stands for. -/
theorem sampleWordsDecode : Obligations.SampleWordsDecode := by
  unfold Obligations.SampleWordsDecode
  refine ⟨?init, ?setTxFifoSize, ?configureInEp, ?outTransfer, ?setDeviceAddress, ?stallOutEp, ?readPacket, ?svcIepint,
    ?rxOutData, ?rxSetupDone, ?iepTxfe, ?oepStup, ?sendZlp⟩
  case sendZlp =>
    have hexpand : (AsmLine.sendZlp 1 10).expand = .inTransfer 1 0 0 10 := rfl
    rw [AsmLine.words, hexpand]
    decide
  all_goals exact decodeIn_of_encode_eq rfl rfl (by decide)

end Sys2Proof.Machine
